-- ==== Sys2Proof/Word.lean ====
section
/-! DEFINITION. The word types of the machine (spec/00_scope.md R7, R9; spec/30_encoding.md R91).
Every value is unsigned unless a rule says otherwise; a bit vector's bit 0 is its least significant bit. -/

namespace Sys2Proof

/-- A register or memory byte: 8 bits (R7, R20). -/
abbrev Byte := BitVec 8

/-- A 16-bit word: `I`, `PC`, a stack entry, an instruction word (R7, R22, R23, R24, R91). -/
abbrev Word := BitVec 16

/-- A 4-bit field of an instruction word: a "nibble" (R11, R91). -/
abbrev Nibble := BitVec 4

/-- The 12-bit address field `NNN` of an instruction word (R91). -/
abbrev Addr := BitVec 12

/-- The number of a general register, V0 to VF (R20). -/
abbrev Reg := Fin 16

/-- A time in nanoseconds on the base of the `time_ns` input: 64 bits (R29, R32). -/
abbrev Time := BitVec 64

end Sys2Proof
end

