-- ==== Sys2Proof/Config.lean ====
section
/-! DEFINITION. The parameters of the hardware (spec/00_scope.md R7) and the free values: what an input port carries
at a tick for which the state holds no sample (spec/41_alu.md R151, spec/43_keys_timers.md R186), and which tick comes
next when the state holds no event (spec/60_exceptions.md R240). -/

namespace Sys2Proof

/-- How `SUB` and `SUBN` compute their flag (R7; spec/41_alu.md R147, R149). -/
inductive FlagMode where
  /-- The flag is 1 exactly when the wrapped 8-bit difference, read as a signed byte, is not negative. -/
  | resultSign
  /-- The flag is 1 exactly when the subtraction does not borrow. -/
  | noBorrow
  deriving DecidableEq, Repr

/-- A font: 16 glyphs of 5 bytes, one row a byte, glyph `d` at address `5 * d` (spec/20_memory.md R61, R62). -/
abbrev Font := Vector (Vector Byte 5) 16

/-- The parameters of the hardware (R7). Fixed for one machine: no step changes them. -/
structure Params where
  /-- CPU ticks per second. -/
  cpuHz : Nat
  /-- Display ticks per second. -/
  displayHz : Nat
  /-- The font table placed at 0x000 to 0x04F at reset. -/
  font : Font
  /-- The flag mode of `SUB` (8XY5). -/
  subFlag : FlagMode
  /-- The flag mode of `SUBN` (8XY7). -/
  subnFlag : FlagMode
  deriving DecidableEq, Repr

namespace Config

/-- Glyphs 0 to 7 of the default font (R62). -/
def glyphs0to7 : Vector (Vector Byte 5) 8 :=
  #v[#v[0xF0, 0x90, 0x90, 0x90, 0xF0], #v[0x20, 0x60, 0x20, 0x20, 0x70],
     #v[0xF0, 0x10, 0xF0, 0x80, 0xF0], #v[0xF0, 0x10, 0xF0, 0x10, 0xF0],
     #v[0x90, 0x90, 0xF0, 0x10, 0x10], #v[0xF0, 0x80, 0xF0, 0x10, 0xF0],
     #v[0xF0, 0x80, 0xF0, 0x90, 0xF0], #v[0xF0, 0x10, 0x20, 0x40, 0x40]]

/-- Glyphs 8 to F of the default font (R62). -/
def glyphs8toF : Vector (Vector Byte 5) 8 :=
  #v[#v[0xF0, 0x90, 0xF0, 0x90, 0xF0], #v[0xF0, 0x90, 0xF0, 0x10, 0xF0],
     #v[0xF0, 0x90, 0xF0, 0x90, 0x90], #v[0xE0, 0x90, 0xE0, 0x90, 0xE0],
     #v[0xF0, 0x80, 0x80, 0x80, 0xF0], #v[0xE0, 0x90, 0x90, 0x90, 0xE0],
     #v[0xF0, 0x80, 0xF0, 0x80, 0xF0], #v[0xF0, 0x80, 0xF0, 0x80, 0x80]]

/-- The default of `FONT`: the table of R62 (log entry 5). -/
def defaultFont : Font := glyphs0to7 ++ glyphs8toF

/-- The defaults of R7: 600 Hz, 60 Hz, the font of R62, `SUB_FLAG = RESULT_SIGN`, `SUBN_FLAG = NO_BORROW`. -/
def defaultParams : Params :=
  { cpuHz := 600, displayHz := 60, font := defaultFont, subFlag := .resultSign, subnFlag := .noBorrow }

/-- FREE VALUE: what the `keys` port carries at a tick that has no sample in store (R186; log entry 3). -/
opaque freeKeys : Nat → BitVec 16

/-- FREE VALUE: what the `rnd` port carries at a tick that has no sample in store (R151; log entry 3). -/
opaque freeRnd : Nat → Byte

/-- FREE VALUE: what the `render_fail` port carries at a tick that has no sample in store (R232; log entry 3). -/
opaque freeRenderFail : Nat → Bool

/-- FREE VALUE: what the `buzz_fail` port carries at a tick that has no sample in store (R232; log entry 3). -/
opaque freeBuzzFail : Nat → Bool

/-- FREE VALUE: whether a tick for which the state holds no event is a display tick, else it is a CPU tick: a word over
the two ticks without end, of which nothing is known (R240; log entry 2). -/
opaque freeDisplayTick : Nat → Bool

end Config

end Sys2Proof
end

