-- ==== Sys2Proof/Syntax.lean ====
section
/-! DEFINITION. The instructions: one constructor for each row of spec/opcode_table.json, in the table's order
(spec/30_encoding.md R92, R94, R101). The mnemonics are those of R102. -/

namespace Sys2Proof

/-- One instruction, with the fields its format gives it (R91, R92). The three `NOP` rows carry the fields of their
family's words, which the instruction ignores (R101, R129). -/
inductive Instr where
  /-- `CLS`, 00E0: clear the screen (R170). -/
  | cls
  /-- `RET`, 00EE: return (R121). -/
  | ret
  /-- `SYS NNN`, 0NNN other than 00E0 and 00EE: a no-op (R120, R95). -/
  | sys (nnn : Addr)
  /-- `JP NNN`, 1NNN: jump (R122). -/
  | jp (nnn : Addr)
  /-- `CALL NNN`, 2NNN: call (R123). -/
  | call (nnn : Addr)
  /-- `SE Vx, NN`, 3XNN: skip when equal (R125). -/
  | seImm (x : Reg) (nn : Byte)
  /-- `SNE Vx, NN`, 4XNN: skip when not equal (R126). -/
  | sneImm (x : Reg) (nn : Byte)
  /-- `SE Vx, Vy`, 5XY0, the low nibble ignored: skip when equal (R127, R96). -/
  | seReg (x y : Reg)
  /-- `LD Vx, NN`, 6XNN: load an immediate (R140). -/
  | ldImm (x : Reg) (nn : Byte)
  /-- `ADD Vx, NN`, 7XNN: add an immediate, no flag (R141). -/
  | addImm (x : Reg) (nn : Byte)
  /-- `LD Vx, Vy`, 8XY0: copy a register (R142). -/
  | ldReg (x y : Reg)
  /-- `OR Vx, Vy`, 8XY1 (R143). -/
  | orReg (x y : Reg)
  /-- `AND Vx, Vy`, 8XY2 (R144). -/
  | andReg (x y : Reg)
  /-- `XOR Vx, Vy`, 8XY3 (R145). -/
  | xorReg (x y : Reg)
  /-- `ADD Vx, Vy`, 8XY4: add, VF is the carry (R146). -/
  | addReg (x y : Reg)
  /-- `SUB Vx, Vy`, 8XY5: subtract, VF per `SUB_FLAG` (R147). -/
  | sub (x y : Reg)
  /-- `SHR Vx, Vy`, 8XY6: Vx is Vy shifted right by one, VF the bit shifted out (R148). -/
  | shr (x y : Reg)
  /-- `SUBN Vx, Vy`, 8XY7: reverse subtract, VF per `SUBN_FLAG` (R149). -/
  | subn (x y : Reg)
  /-- `SHL Vx, Vy`, 8XYE: Vx is Vy shifted left by one, VF the bit shifted out (R150). -/
  | shl (x y : Reg)
  /-- `NOP`, the unassigned words 8XYN (R97, R129). -/
  | nop8 (x y : Reg) (n : Nibble)
  /-- `SNE Vx, Vy`, 9XY0, the low nibble ignored: skip when not equal (R128, R96). -/
  | sneReg (x y : Reg)
  /-- `LD I, NNN`, ANNN: load the index register (R200). -/
  | ldI (nnn : Addr)
  /-- `JP V0, NNN`, BNNN: jump to NNN plus V0 (R124). -/
  | jpV0 (nnn : Addr)
  /-- `RND Vx, NN`, CXNN: random byte and NN (R151). -/
  | rnd (x : Reg) (nn : Byte)
  /-- `DRW Vx, Vy, N`, DXYN: draw a sprite of N rows (R171). -/
  | drw (x y : Reg) (n : Nibble)
  /-- `SKP Vx`, EX9E: skip when the key is pressed (R180). -/
  | skp (x : Reg)
  /-- `SKNP Vx`, EXA1: skip when the key is not pressed (R181). -/
  | sknp (x : Reg)
  /-- `NOP`, the unassigned words EXNN (R98, R129). -/
  | nopE (x : Reg) (nn : Byte)
  /-- `LD Vx, DT`, FX07: read the delay timer (R182). -/
  | ldVxDt (x : Reg)
  /-- `LD Vx, K`, FX0A: wait for a key (R183). -/
  | ldVxK (x : Reg)
  /-- `LD DT, Vx`, FX15: set the delay timer (R184). -/
  | ldDtVx (x : Reg)
  /-- `LD ST, Vx`, FX18: set the sound timer (R185). -/
  | ldStVx (x : Reg)
  /-- `ADD I, Vx`, FX1E: add to the index register, no flag (R201). -/
  | addI (x : Reg)
  /-- `LD F, Vx`, FX29: I is the address of a glyph (R202). -/
  | ldF (x : Reg)
  /-- `LD B, Vx`, FX33: store the decimal digits (R203). -/
  | ldB (x : Reg)
  /-- `LD [I], Vx`, FX55: store V0 to Vx (R204). -/
  | ldMemVx (x : Reg)
  /-- `LD Vx, [I]`, FX65: load V0 to Vx (R205). -/
  | ldVxMem (x : Reg)
  /-- `NOP`, the unassigned words FXNN (R104, R129). -/
  | nopF (x : Reg) (nn : Byte)
  deriving DecidableEq, Repr

end Sys2Proof
end

