-- ==== Sys2Proof/WellFormed.lean ====
section
/-! DEFINITION. Which instructions are well formed, and which parameters are.
A field's width is in its type (spec/30_encoding.md R91); what is left to check is that a word which decodes to another
row is not named by the general row (R95, R97, R98, R104). -/

namespace Sys2Proof

/-- `NNN` of a `SYS` word: not that of `CLS` and not that of `RET` (R95). -/
def sysAddr (nnn : Addr) : Bool := nnn != 0x0E0#12 && nnn != 0x0EE#12

/-- The low nibbles that family 8 does not assign: 8, 9, A, B, C, D, F (R97). -/
def unassigned8 (n : Nibble) : Bool :=
  n == 0x8#4 || n == 0x9#4 || n == 0xA#4 || n == 0xB#4 || n == 0xC#4 || n == 0xD#4 || n == 0xF#4

/-- The low bytes that family E does not assign: all but 9E and A1 (R98). -/
def unassignedE (nn : Byte) : Bool := nn != 0x9E#8 && nn != 0xA1#8

/-- The low bytes that family F does not assign: all but the nine of R104. -/
def unassignedF (nn : Byte) : Bool :=
  nn != 0x07#8 && nn != 0x0A#8 && nn != 0x15#8 && nn != 0x18#8 && nn != 0x1E#8 &&
  nn != 0x29#8 && nn != 0x33#8 && nn != 0x55#8 && nn != 0x65#8

/-- The instruction is one that some word encodes. -/
def Instr.wf : Instr → Bool
  | .cls => true
  | .ret => true
  | .sys nnn => sysAddr nnn
  | .jp _ => true
  | .call _ => true
  | .seImm _ _ => true
  | .sneImm _ _ => true
  | .seReg _ _ => true
  | .ldImm _ _ => true
  | .addImm _ _ => true
  | .ldReg _ _ => true
  | .orReg _ _ => true
  | .andReg _ _ => true
  | .xorReg _ _ => true
  | .addReg _ _ => true
  | .sub _ _ => true
  | .shr _ _ => true
  | .subn _ _ => true
  | .shl _ _ => true
  | .nop8 _ _ n => unassigned8 n
  | .sneReg _ _ => true
  | .ldI _ => true
  | .jpV0 _ => true
  | .rnd _ _ => true
  | .drw _ _ _ => true
  | .skp _ => true
  | .sknp _ => true
  | .nopE _ nn => unassignedE nn
  | .ldVxDt _ => true
  | .ldVxK _ => true
  | .ldDtVx _ => true
  | .ldStVx _ => true
  | .addI _ => true
  | .ldF _ => true
  | .ldB _ => true
  | .ldMemVx _ => true
  | .ldVxMem _ => true
  | .nopF _ nn => unassignedF nn

/-- A rate in the bounds of R7 and R230: 1 to 10^9 Hz. -/
def rateOk (hz : Nat) : Bool := 1 ≤ hz && hz ≤ 1000000000

/-- "the low nibble of every font byte is 0" (spec/20_memory.md R62). -/
def fontOk (f : Font) : Bool := f.toList.all fun g => g.toList.all fun b => b.extractLsb' 0 4 == 0#4

/-- The parameters are within the bounds the spec gives them (R7, R62, R230). -/
def Params.wf (p : Params) : Bool := rateOk p.cpuHz && rateOk p.displayHz && fontOk p.font

end Sys2Proof
end

