-- ==== Sys2Proof/Decode.lean ====
section
/-! DEFINITION. Decoding, total on all 65536 words (spec/30_encoding.md R94), the encoder, and the opcode table of R101.
An instruction is one 16-bit word, two bytes, the more significant byte at the lower address (spec/20_memory.md R64). -/

namespace Sys2Proof

/-! ## The fields of a word (R91) -/

/-- The register a 4-bit field names. -/
def regOf (n : Nibble) : Reg := n.toFin

/-- The 4-bit field that names a register. -/
def nibbleOf (r : Reg) : Nibble := BitVec.ofFin r

/-- `op`, bits 15:12. -/
def opField (w : Word) : Nibble := w.extractLsb' 12 4

/-- `X`, bits 11:8. -/
def xField (w : Word) : Reg := regOf (w.extractLsb' 8 4)

/-- `Y`, bits 7:4. -/
def yField (w : Word) : Reg := regOf (w.extractLsb' 4 4)

/-- `N`, bits 3:0. -/
def nField (w : Word) : Nibble := w.extractLsb' 0 4

/-- `NN`, bits 7:0. -/
def nnField (w : Word) : Byte := w.extractLsb' 0 8

/-- `NNN`, bits 11:0. -/
def nnnField (w : Word) : Addr := w.extractLsb' 0 12

/-! ## Decoding a word -/

/-- Family 0: two exact words, all others `SYS` (R95). -/
def decode0 (w : Word) : Instr :=
  if w = 0x00E0#16 then .cls else if w = 0x00EE#16 then .ret else .sys (nnnField w)

/-- Family 8, selected by the low nibble (R97). -/
def decode8 (w : Word) : Instr :=
  match nField w with
  | 0x0#4 => .ldReg (xField w) (yField w)
  | 0x1#4 => .orReg (xField w) (yField w)
  | 0x2#4 => .andReg (xField w) (yField w)
  | 0x3#4 => .xorReg (xField w) (yField w)
  | 0x4#4 => .addReg (xField w) (yField w)
  | 0x5#4 => .sub (xField w) (yField w)
  | 0x6#4 => .shr (xField w) (yField w)
  | 0x7#4 => .subn (xField w) (yField w)
  | 0xE#4 => .shl (xField w) (yField w)
  | n => .nop8 (xField w) (yField w) n

/-- Family E, selected by the low byte (R98). -/
def decodeE (w : Word) : Instr :=
  match nnField w with
  | 0x9E#8 => .skp (xField w)
  | 0xA1#8 => .sknp (xField w)
  | nn => .nopE (xField w) nn

/-- Family F, selected by the low byte (R104). -/
def decodeF (w : Word) : Instr :=
  match nnField w with
  | 0x07#8 => .ldVxDt (xField w)
  | 0x0A#8 => .ldVxK (xField w)
  | 0x15#8 => .ldDtVx (xField w)
  | 0x18#8 => .ldStVx (xField w)
  | 0x1E#8 => .addI (xField w)
  | 0x29#8 => .ldF (xField w)
  | 0x33#8 => .ldB (xField w)
  | 0x55#8 => .ldMemVx (xField w)
  | 0x65#8 => .ldVxMem (xField w)
  | nn => .nopF (xField w) nn

/-- `Decode` of R94: the top nibble selects the family; families 0, 8, E and F select further. -/
def decode (w : Word) : Instr :=
  match opField w with
  | 0x0#4 => decode0 w
  | 0x1#4 => .jp (nnnField w)
  | 0x2#4 => .call (nnnField w)
  | 0x3#4 => .seImm (xField w) (nnField w)
  | 0x4#4 => .sneImm (xField w) (nnField w)
  | 0x5#4 => .seReg (xField w) (yField w)
  | 0x6#4 => .ldImm (xField w) (nnField w)
  | 0x7#4 => .addImm (xField w) (nnField w)
  | 0x8#4 => decode8 w
  | 0x9#4 => .sneReg (xField w) (yField w)
  | 0xA#4 => .ldI (nnnField w)
  | 0xB#4 => .jpV0 (nnnField w)
  | 0xC#4 => .rnd (xField w) (nnField w)
  | 0xD#4 => .drw (xField w) (yField w) (nField w)
  | 0xE#4 => decodeE w
  | _ => decodeF w

/-! ## Decoding bytes -/

/-- Why a string of bytes holds no instruction. -/
inductive DecodeError where
  /-- Fewer than the two bytes every instruction has (R91). -/
  | truncated
  deriving DecidableEq, Repr

/-- The word of two bytes, the first the more significant (R64). -/
def wordOf (hi lo : Byte) : Word := hi ++ lo

/-- The more significant byte of a word, stored at the lower address (R64). -/
def highByte (w : Word) : Byte := w.extractLsb' 8 8

/-- The less significant byte of a word, stored at the higher address (R64). -/
def lowByte (w : Word) : Byte := w.extractLsb' 0 8

/-- The instruction at the front of a string of bytes and the bytes after it. -/
def decodeBytes : List Byte → Except DecodeError (Instr × List Byte)
  | hi :: lo :: rest => .ok (decode (wordOf hi lo), rest)
  | _ => .error .truncated

/-! ## Encoding: the formats of R92 -/

/-- Format `NNN`: `op NNN`. -/
def formatNNN (op : Nibble) (nnn : Addr) : Word := op ++ nnn

/-- Format `XNN`: `op X NN`; also format `X`, with its sub-opcode in the place of `NN`. -/
def formatXNN (op : Nibble) (x : Reg) (nn : Byte) : Word := op ++ nibbleOf x ++ nn

/-- Format `XYN`: `op X Y N`; also format `XY`, with its sub-opcode in the place of `N`. -/
def formatXYN (op : Nibble) (x y : Reg) (n : Nibble) : Word := op ++ nibbleOf x ++ nibbleOf y ++ n

/-- The word of an instruction. `SE Vx, Vy` and `SNE Vx, Vy` have `N = 0`, the canonical spelling (R96). -/
def encode : Instr → Word
  | .cls => 0x00E0#16
  | .ret => 0x00EE#16
  | .sys nnn => formatNNN 0x0#4 nnn
  | .jp nnn => formatNNN 0x1#4 nnn
  | .call nnn => formatNNN 0x2#4 nnn
  | .seImm x nn => formatXNN 0x3#4 x nn
  | .sneImm x nn => formatXNN 0x4#4 x nn
  | .seReg x y => formatXYN 0x5#4 x y 0x0#4
  | .ldImm x nn => formatXNN 0x6#4 x nn
  | .addImm x nn => formatXNN 0x7#4 x nn
  | .ldReg x y => formatXYN 0x8#4 x y 0x0#4
  | .orReg x y => formatXYN 0x8#4 x y 0x1#4
  | .andReg x y => formatXYN 0x8#4 x y 0x2#4
  | .xorReg x y => formatXYN 0x8#4 x y 0x3#4
  | .addReg x y => formatXYN 0x8#4 x y 0x4#4
  | .sub x y => formatXYN 0x8#4 x y 0x5#4
  | .shr x y => formatXYN 0x8#4 x y 0x6#4
  | .subn x y => formatXYN 0x8#4 x y 0x7#4
  | .shl x y => formatXYN 0x8#4 x y 0xE#4
  | .nop8 x y n => formatXYN 0x8#4 x y n
  | .sneReg x y => formatXYN 0x9#4 x y 0x0#4
  | .ldI nnn => formatNNN 0xA#4 nnn
  | .jpV0 nnn => formatNNN 0xB#4 nnn
  | .rnd x nn => formatXNN 0xC#4 x nn
  | .drw x y n => formatXYN 0xD#4 x y n
  | .skp x => formatXNN 0xE#4 x 0x9E#8
  | .sknp x => formatXNN 0xE#4 x 0xA1#8
  | .nopE x nn => formatXNN 0xE#4 x nn
  | .ldVxDt x => formatXNN 0xF#4 x 0x07#8
  | .ldVxK x => formatXNN 0xF#4 x 0x0A#8
  | .ldDtVx x => formatXNN 0xF#4 x 0x15#8
  | .ldStVx x => formatXNN 0xF#4 x 0x18#8
  | .addI x => formatXNN 0xF#4 x 0x1E#8
  | .ldF x => formatXNN 0xF#4 x 0x29#8
  | .ldB x => formatXNN 0xF#4 x 0x33#8
  | .ldMemVx x => formatXNN 0xF#4 x 0x55#8
  | .ldVxMem x => formatXNN 0xF#4 x 0x65#8
  | .nopF x nn => formatXNN 0xF#4 x nn

/-! ## The machine-readable table (R101) -/

/-- Rows 0 to 19 of spec/opcode_table.json as `(match, mask)`: families 0 to 8. -/
def tableRows0to8 : List (Word × Word) :=
  [(0x00E0#16, 0xFFFF#16), (0x00EE#16, 0xFFFF#16), (0x0000#16, 0xF000#16), (0x1000#16, 0xF000#16),
   (0x2000#16, 0xF000#16), (0x3000#16, 0xF000#16), (0x4000#16, 0xF000#16), (0x5000#16, 0xF000#16),
   (0x6000#16, 0xF000#16), (0x7000#16, 0xF000#16), (0x8000#16, 0xF00F#16), (0x8001#16, 0xF00F#16),
   (0x8002#16, 0xF00F#16), (0x8003#16, 0xF00F#16), (0x8004#16, 0xF00F#16), (0x8005#16, 0xF00F#16),
   (0x8006#16, 0xF00F#16), (0x8007#16, 0xF00F#16), (0x800E#16, 0xF00F#16), (0x8000#16, 0xF000#16)]

/-- Rows 20 to 37 of spec/opcode_table.json as `(match, mask)`: families 9 to F. -/
def tableRows9toF : List (Word × Word) :=
  [(0x9000#16, 0xF000#16), (0xA000#16, 0xF000#16), (0xB000#16, 0xF000#16), (0xC000#16, 0xF000#16),
   (0xD000#16, 0xF000#16), (0xE09E#16, 0xF0FF#16), (0xE0A1#16, 0xF0FF#16), (0xE000#16, 0xF000#16),
   (0xF007#16, 0xF0FF#16), (0xF00A#16, 0xF0FF#16), (0xF015#16, 0xF0FF#16), (0xF018#16, 0xF0FF#16),
   (0xF01E#16, 0xF0FF#16), (0xF029#16, 0xF0FF#16), (0xF033#16, 0xF0FF#16), (0xF055#16, 0xF0FF#16),
   (0xF065#16, 0xF0FF#16), (0xF000#16, 0xF000#16)]

/-- The rows of spec/opcode_table.json, in the table's order. -/
def opcodeTable : List (Word × Word) := tableRows0to8 ++ tableRows9toF

/-- "A word `w` matches a row when `(w and mask) == match`" (R101). -/
def rowMatches (w : Word) (row : Word × Word) : Bool := w &&& row.2 == row.1

/-- "Rows are ordered and the first matching row wins" (R101): the number of that row. -/
def winningRow (w : Word) : Option Nat := opcodeTable.findIdx? (rowMatches w)

/-- The number of the table's row an instruction stands for, the first row being 0. -/
def Instr.row : Instr → Nat
  | .cls => 0
  | .ret => 1
  | .sys _ => 2
  | .jp _ => 3
  | .call _ => 4
  | .seImm _ _ => 5
  | .sneImm _ _ => 6
  | .seReg _ _ => 7
  | .ldImm _ _ => 8
  | .addImm _ _ => 9
  | .ldReg _ _ => 10
  | .orReg _ _ => 11
  | .andReg _ _ => 12
  | .xorReg _ _ => 13
  | .addReg _ _ => 14
  | .sub _ _ => 15
  | .shr _ _ => 16
  | .subn _ _ => 17
  | .shl _ _ => 18
  | .nop8 _ _ _ => 19
  | .sneReg _ _ => 20
  | .ldI _ => 21
  | .jpV0 _ => 22
  | .rnd _ _ => 23
  | .drw _ _ _ => 24
  | .skp _ => 25
  | .sknp _ => 26
  | .nopE _ _ => 27
  | .ldVxDt _ => 28
  | .ldVxK _ => 29
  | .ldDtVx _ => 30
  | .ldStVx _ => 31
  | .addI _ => 32
  | .ldF _ => 33
  | .ldB _ => 34
  | .ldMemVx _ => 35
  | .ldVxMem _ => 36
  | .nopF _ _ => 37

/-! ## The table's words as stored bytes -/

/-- The 16-bit word of which the table gives the low `nbits` bits; the bits above are 0. -/
def tableWord (nbits w : Nat) : Word := BitVec.ofNat 16 (w % 2 ^ nbits)

/-- The instruction the decoder reads from a table row's word, laid out as the hardware stores it. -/
def decodeTableWord (nbits w : Nat) : Option Instr :=
  match decodeBytes [highByte (tableWord nbits w), lowByte (tableWord nbits w)] with
  | .ok (i, _) => some i
  | .error _ => none

end Sys2Proof
end

