-- ==== Sys2Proof/Machine/State.lean ====
section
/-! DEFINITION. The state of the machine as plain data (spec/10_state.md), the reasons a step can stop, and the state
right after reset (R33; spec/70_reset_and_hazards.md R260). -/

namespace Sys2Proof.Machine

/-- The framebuffer, `FB[x][y]`: 64 columns `x`, each of 32 pixels `y` (R26). -/
abbrev Framebuffer := Vector (Vector Bool 32) 64

/-- Memory as the list of the cells that differ from the reset contents, addresses strictly rising (R30; log entry 6). -/
abbrev Memory := List Host.Cell

/-- The run status (spec/00_scope.md R6). -/
inductive Status where
  | running
  | fault
  | stopped
  deriving DecidableEq, Repr

/-- The recorded causes of the end of a run (spec/60_exceptions.md R221). -/
inductive Cause where
  /-- Code 0: the status is `RUNNING`. -/
  | none
  /-- Code 1: the fetch of a tick at a PC above 0x0FFE. -/
  | fetchRangeFault
  /-- Code 2: a data access with a byte above 0x0FFF. -/
  | dataRangeFault
  /-- Code 3: `CALL` with 16 entries in use. -/
  | stackOverflow
  /-- Code 4: `RET` with no entry in use. -/
  | stackUnderflow
  /-- Code 5: `SKP` or `SKNP` with a key index above 15. -/
  | keyIndexFault
  /-- Code 6: the display or the sound collaborator failed; leads to `STOPPED`. -/
  | collaboratorFailure
  deriving DecidableEq, Repr

/-- One sample of the input ports a tick can read (R32). -/
structure Ports where
  /-- Bit `i` is 1 when key `i` is pressed (spec/43_keys_timers.md R186). -/
  keys : BitVec 16
  /-- The random byte (spec/41_alu.md R151). -/
  rnd : Byte
  /-- The display collaborator fails (spec/60_exceptions.md R232). -/
  renderFail : Bool
  /-- The sound collaborator fails (R232). -/
  buzzFail : Bool
  deriving DecidableEq, Repr

/-- What the host can make happen to the core next (spec/00_scope.md R4; spec/60_exceptions.md R229, R240; log entry 2). -/
inductive Event where
  /-- One CPU tick. -/
  | cpuTick
  /-- One display tick. -/
  | displayTick
  /-- One pass of the scheduler at time `now`: all ticks that are due (R229). -/
  | pass (now : Time)
  /-- The run begins at time `t0` (R229, `Start`). -/
  | start (t0 : Time)
  /-- Reset with a ROM image (spec/70_reset_and_hazards.md R260). -/
  | reset (rom : List Byte)
  deriving DecidableEq, Repr

/-- The state of the machine. The comment of each field names the rule of spec/10_state.md that gives it. -/
structure State where
  /-- V0 to VF (R20); VF is the flag (R21). -/
  v : Vector Byte 16
  /-- The index register `I` (R22). -/
  idx : Word
  /-- The program counter (R23). -/
  pc : Word
  /-- The call stack (R24). -/
  stack : Vector Word 16
  /-- The stack pointer: the number of entries in use, 0 to 16 (R24). -/
  sp : Fin 17
  /-- The delay timer `DT` (R25). -/
  dt : Byte
  /-- The sound timer `ST` (R25). -/
  st : Byte
  /-- The framebuffer `FB` (R26). -/
  fb : Framebuffer
  /-- The key-wait sub-state: waiting or idle (R27). -/
  kwWaiting : Bool
  /-- The target register of the key wait (R27). -/
  kwReg : Reg
  /-- The key the key wait saw pressed (R27). -/
  kwKey : Nibble
  /-- Memory (R30). -/
  mem : Memory
  /-- The run status (R28). -/
  status : Status
  /-- The fault record: the cause (R28). -/
  faultCause : Cause
  /-- The fault record: the PC at the start of the tick (R28). -/
  faultPc : Word
  /-- The fault record: the address or key index, 17 bits (R28). -/
  faultAddr : BitVec 17
  /-- The CPU marker of the scheduler (R29). -/
  cpuMarker : Time
  /-- The display marker of the scheduler (R29). -/
  dispMarker : Time
  /-- The `render` strobe of the latest step (R32). -/
  render : Bool
  /-- The `buzz` strobe of the latest step (R32). -/
  buzz : Bool
  /-- The input ports as sampled at the current tick (R32). -/
  ports : Ports
  /-- The latest value of the `time_ns` port (R32; log entry 8). -/
  timeNs : Time
  /-- The parameters, which no step changes (spec/00_scope.md R7; log entry 4). -/
  params : Params
  /-- The model's own field: the events the host has in store, next one first (log entry 2). -/
  agenda : List Event
  /-- The model's own field: the port samples the host has in store, one for each tick (log entry 3). -/
  inputs : List Ports
  /-- The model's own field: the counter of the free values (log entry 3). -/
  draws : Nat
  /-- The model's own field: the counter of the free schedule, the ticks that no event in store gave (log entry 2). -/
  freeTicks : Nat
  deriving DecidableEq, Repr

/-- The reasons a step stops with a fault: none. Every fault of the spec is a recorded state of the machine
(spec/60_exceptions.md R222), so the meanings answer it as a next state, and no step of this machine faults
(log entry 1; safe, since nothing is claimed of a fault that cannot occur). -/
inductive Fault where
  deriving DecidableEq, Repr

/-- The reasons a step has no meaning. Only events of the host raise the last three; no instruction does. -/
inductive Refusal where
  /-- Raised by `exec` for an instruction without a meaning in the model; no arm raises it. Safe. -/
  | notModelled (mnemonic : String)
  /-- Raised by a step whose next event is a reset with a ROM of more than 3584 bytes (R262: "a longer ROM is refused
  and the machine has no state at all"). Safe. -/
  | romTooLong
  /-- Raised by a step whose next event is a `Start` or a pass at a time before the latest one
  (spec/70_reset_and_hazards.md R264: "no meaning given"; U16). Safe. -/
  | timeBackwards
  /-- Raised by a step whose next event is a `Start` or a pass while a rate is outside 1 to 10^9 Hz
  (spec/60_exceptions.md R230; U16). Safe. -/
  | rateOutOfBounds
  deriving DecidableEq, Repr

/-- What the next step does (spec/60_exceptions.md R229): which tick or host event, or that it has no meaning. -/
inductive Action where
  | cpuTick
  | displayTick
  | reset (rom : List Byte)
  | start
  /-- Nothing more is due in the pass at the head of the agenda: the pass ends. -/
  | passDone
  | refuse (r : Refusal)
  deriving DecidableEq, Repr

/-- The machine right after `Reset` with an empty ROM and a run that begins at time 0 (R33; log entries 4 and 7). -/
def State.reset : State :=
  { v := Vector.replicate 16 0x00#8
    idx := 0x0000#16
    pc := 0x0200#16
    stack := Vector.replicate 16 0x0000#16
    sp := 0
    dt := 0x00#8
    st := 0x00#8
    fb := Vector.replicate 64 (Vector.replicate 32 false)
    kwWaiting := false
    kwReg := 0
    kwKey := 0x0#4
    mem := []
    status := .running
    faultCause := .none
    faultPc := 0x0000#16
    faultAddr := 0#17
    cpuMarker := 0#64
    dispMarker := 0#64
    render := false
    buzz := false
    ports := { keys := 0x0000#16, rnd := 0x00#8, renderFail := false, buzzFail := false }
    timeNs := 0#64
    params := Config.defaultParams
    agenda := []
    inputs := []
    draws := 0
    freeTicks := 0 }

end Sys2Proof.Machine
end

