-- ==== Sys2Proof/Machine/Ops.lean ====
section
/-! DEFINITION. The named operations over memory, registers, the program counter and the stack, and taking a fault.
A meaning is given the state before the tick, so that `s.pc` is the address of its own instruction (`pc0` of
spec/30_encoding.md R90), and applies the common advance itself. -/

namespace Sys2Proof.Machine

/-! ## Memory (spec/20_memory.md) -/

/-- Which glyph of the font an address below 80 falls in (R61). -/
def glyphIndex (a : Nat) : Fin 16 := Fin.ofNat 16 (a / 5)

/-- Which row of its glyph an address below 80 is (R61). -/
def glyphRow (a : Nat) : Fin 5 := Fin.ofNat 5 (a % 5)

/-- What an address reads as while nothing has been stored there: the font at 0x000 to 0x04F, glyph `d` at `5 * d`,
zero elsewhere (R61, R62; spec/10_state.md R33). -/
def Memory.background (font : Font) (a : Nat) : Byte :=
  if a < 80 then font[glyphIndex a][glyphRow a] else 0x00#8

/-- The byte listed at an address, if one is. -/
def Memory.lookup : Memory → Nat → Option Byte
  | [], _ => none
  | (k, b) :: rest, a => if k = a then some b else Memory.lookup rest a

/-- The byte at an address (`MemRead(a, 1)` of R63). -/
def Memory.read (font : Font) (m : Memory) (a : Nat) : Byte :=
  (Memory.lookup m a).getD (Memory.background font a)

/-- List the byte `b` at address `a`, in its place in the rising order. -/
def Memory.put : Memory → Nat → Byte → Memory
  | [], a, b => [(a, b)]
  | (k, c) :: rest, a, b =>
    if a < k then (a, b) :: (k, c) :: rest
    else if a = k then (a, b) :: rest
    else (k, c) :: Memory.put rest a b

/-- List no byte at address `a`. -/
def Memory.drop : Memory → Nat → Memory
  | [], _ => []
  | (k, c) :: rest, a => if k = a then Memory.drop rest a else (k, c) :: Memory.drop rest a

/-- Store a byte (`MemWrite(a, 1, b)` of R63), keeping the canonical form. -/
def Memory.write (font : Font) (m : Memory) (a : Nat) (b : Byte) : Memory :=
  if b = Memory.background font a then Memory.drop m a else Memory.put m a b

/-- Store bytes at ascending addresses (R64). -/
def Memory.writeBytes (font : Font) : Memory → Nat → List Byte → Memory
  | m, _, [] => m
  | m, a, b :: bs => Memory.writeBytes font (Memory.write font m a b) (a + 1) bs

/-- The canonical form from address `lo` up: addresses strictly rising, all in 0x000 to 0xFFF (R60), no cell equal to
what its address reads as unlisted. -/
def Memory.wfFrom (font : Font) : Nat → Memory → Bool
  | _, [] => true
  | lo, (k, c) :: rest =>
    decide (lo ≤ k) && decide (k ≤ 0xFFF) && (c != Memory.background font k) && Memory.wfFrom font (k + 1) rest

/-- The canonical form of memory. -/
def Memory.wf (font : Font) (m : Memory) : Bool := Memory.wfFrom font 0 m

/-- The byte at an address of memory (R63). -/
def State.readByte (s : State) (a : Nat) : Byte := s.mem.read s.params.font a

/-- The `n` bytes from address `a` up (R64). -/
def State.readBytes (s : State) (a n : Nat) : List Byte := (List.range n).map fun k => s.readByte (a + k)

/-- Store bytes at ascending addresses from `a` (R64). -/
def State.storeBytes (s : State) (a : Nat) (bs : List Byte) : State :=
  { s with mem := s.mem.writeBytes s.params.font a bs }

/-- The word a fetch reads: the bytes at PC and PC + 1, big-endian, PC odd or even (R64, R65). -/
def State.fetchWord (s : State) : Word := wordOf (s.readByte s.pc.toNat) (s.readByte (s.pc.toNat + 1))

/-! ## Registers (spec/10_state.md R20 to R25) -/

/-- The read `V[r]`. -/
def State.getV (s : State) (r : Reg) : Byte := s.v[r]

/-- The write `V[r] <- b`. -/
def State.setV (s : State) (r : Reg) (b : Byte) : State := { s with v := s.v.set r b }

/-- The write `I <- w`. -/
def State.setIdx (s : State) (w : Word) : State := { s with idx := w }

/-- The write `PC <- w`. -/
def State.setPc (s : State) (w : Word) : State := { s with pc := w }

/-- The common advance: `PC <- (PC + 2) mod 65536` (R23; spec/30_encoding.md R90). -/
def State.advance (s : State) : State := s.setPc (s.pc + 2#16)

/-- The rewind of the key wait: `PC <- (PC - 2) mod 65536` (spec/43_keys_timers.md R183). -/
def State.rewind (s : State) : State := s.setPc (s.pc - 2#16)

/-- A skip on a condition: 2 more on top of the common advance (spec/40_flow.md R130). -/
def State.skipIf (s : State) (c : Bool) : State := if c then s.setPc (s.pc + 2#16) else s

/-- A slot of the stack by its number, which is below 16 (R24). -/
def stackSlot (n : Nat) : Fin 16 := Fin.ofNat 16 n

/-- A value of SP, a number below 17 (R24). -/
def stackCount (n : Nat) : Fin 17 := Fin.ofNat 17 n

/-- `stack[SP] <- PC; SP <- SP + 1` (R24); only called with `SP` below 16. -/
def State.pushPc (s : State) : State :=
  { s with stack := s.stack.set (stackSlot s.sp.val) s.pc, sp := stackCount (s.sp.val + 1) }

/-- `SP <- SP - 1; PC <- stack[SP]` (R24); only called with `SP` above 0. The popped slot keeps its value. -/
def State.popPc (s : State) : State :=
  { s with sp := stackCount (s.sp.val - 1), pc := s.stack[stackSlot (s.sp.val - 1)] }

/-- The write `DT <- b`. -/
def State.setDt (s : State) (b : Byte) : State := { s with dt := b }

/-- The write `ST <- b`. -/
def State.setSt (s : State) (b : Byte) : State := { s with st := b }

/-! ## Taking a fault (spec/60_exceptions.md R221, R222)

There is no return from a fault (R223): the only way out is `Reset`. -/

/-- The code of a cause (R221). -/
def Cause.code : Cause → Nat
  | .none => 0
  | .fetchRangeFault => 1
  | .dataRangeFault => 2
  | .stackOverflow => 3
  | .stackUnderflow => 4
  | .keyIndexFault => 5
  | .collaboratorFailure => 6

/-- Fault entry, on the state before the tick: everything keeps its value but the status and the fault record (R222). -/
def State.takeFault (s : State) (cause : Cause) (addr : BitVec 17) : State :=
  { s with status := .fault, faultCause := cause, faultPc := s.pc, faultAddr := addr }

/-- The lowest out-of-range address of an access from `base` up that leaves memory (R221). -/
def firstOutOfRange (base : Nat) : BitVec 17 := BitVec.ofNat 17 (max base 0x1000)

/-- Whether `n` bytes from `base` up leave memory; no bytes never do (spec/20_memory.md R63). -/
def leavesMemory (base n : Nat) : Bool := decide (0 < n) && decide (0xFFF < base + n - 1)

/-- The range check of an instruction that accesses the `n` bytes from `I` up: a `DataRangeFault` with no other effect,
or the instruction's effect `t` (spec/20_memory.md R63; R222). -/
def State.guardData (s : State) (n : Nat) (t : State) : State :=
  if leavesMemory s.idx.toNat n then s.takeFault .dataRangeFault (firstOutOfRange s.idx.toNat) else t

/-- The run ends because a collaborator failed (R232, `Stop()`). -/
def State.stop (s : State) : State :=
  { s with status := .stopped, faultCause := .collaboratorFailure, faultPc := s.pc, faultAddr := 0#17 }

end Sys2Proof.Machine
end

