-- ==== Sys2Proof/Machine/Flags.lean ====
section
/-! DEFINITION. The flag computations and the order of the writes of VF (spec/10_state.md R21; spec/41_alu.md). -/

namespace Sys2Proof.Machine

/-- VF, register 15 (R20, R21). -/
def flagReg : Reg := 15

/-- A flag as the byte VF holds: 1 or 0. -/
def flagByte (c : Bool) : Byte := if c then 0x01#8 else 0x00#8

/-- The carry of `a + b`: the 9-bit sum exceeds 255 (R146). -/
def carryFlag (a b : Byte) : Byte := flagByte (decide (255 < a.toNat + b.toNat))

/-- No borrow in `a - b`: `a >= b` (R147, R149 in `NO_BORROW` mode). -/
def noBorrowFlag (a b : Byte) : Byte := flagByte (decide (b.toNat ≤ a.toNat))

/-- The difference read as a signed byte is not negative (R147, R149 in `RESULT_SIGN` mode). -/
def resultSignFlag (d : Byte) : Byte := flagByte (decide (0 ≤ d.toInt))

/-- The bit a right shift by one moves out (R148). -/
def shiftedOutRight (b : Byte) : Byte := flagByte (b.getLsbD 0)

/-- The bit a left shift by one moves out (R150). -/
def shiftedOutLeft (b : Byte) : Byte := flagByte (b.getLsbD 7)

/-- VF first, then the result: with `x = 15` the result survives (R21 item 2). -/
def State.flagThenResult (s : State) (x : Reg) (flag result : Byte) : State := (s.setV flagReg flag).setV x result

/-- The result first, then VF: with `x = 15` the flag survives (R21 item 3). -/
def State.resultThenFlag (s : State) (x : Reg) (result flag : Byte) : State := (s.setV x result).setV flagReg flag

/-- Write the difference `a - b` and its flag, in the order of the mode (R147, R149). -/
def State.writeDifference (s : State) (mode : FlagMode) (x : Reg) (a b : Byte) : State :=
  match mode with
  | .resultSign => s.resultThenFlag x (a - b) (resultSignFlag (a - b))
  | .noBorrow => s.flagThenResult x (noBorrowFlag a b) (a - b)

end Sys2Proof.Machine
end

