-- ==== Sys2Proof/Machine/Operands.lean ====
section
/-! DEFINITION. The operand forms: immediates, the implicit operands, the keypad, the sprite and the screen
(spec/30_encoding.md R100; spec/43_keys_timers.md R186; spec/42_display.md R172, R173; spec/44_index_memory.md R206). -/

namespace Sys2Proof.Machine

/-- `NNN` zero-extended to 16 bits (R100). -/
def addrWord (nnn : Addr) : Word := nnn.setWidth 16

/-- A register's byte zero-extended to 16 bits (spec/00_scope.md R9). -/
def byteWord (b : Byte) : Word := b.setWidth 16

/-! ## The keypad and the random byte -/

/-- `Key(i)`: bit `i` of the `keys` port as sampled at this tick (R186). -/
def State.key (s : State) (i : Nat) : Bool := s.ports.keys.getLsbD i

/-- The lowest-numbered pressed key; 0 when none is pressed (R183). -/
def lowestKey (keys : BitVec 16) : Nibble :=
  BitVec.ofNat 4 (((List.range 16).find? fun i => keys.getLsbD i).getD 0)

/-- `Rand()`: the `rnd` port as sampled at this tick (spec/41_alu.md R151). -/
def State.rand (s : State) : Byte := s.ports.rnd

/-! ## Registers stored and loaded as a block (spec/44_index_memory.md R204, R205) -/

/-- A register by its number, which is below 16. -/
def regNumber (n : Nat) : Reg := Fin.ofNat 16 n

/-- `V[0]` to `V[x]`, in order. -/
def State.regsUpTo (s : State) (x : Reg) : List Byte :=
  (List.range (x.val + 1)).map fun k => s.getV (regNumber k)

/-- The registers with `mem[a + j]` in `V[j]` for `j` in 0 to `x`. -/
def State.loadedRegs (s : State) (x : Reg) (a : Nat) : Vector Byte 16 :=
  Vector.ofFn fun j => if j ≤ x then s.readByte (a + j.val) else s.v[j]

/-- `V[j] <- mem[a + j]` for `j` in 0 to `x`. -/
def State.loadRegs (s : State) (x : Reg) (a : Nat) : State := { s with v := s.loadedRegs x a }

/-- The decimal digits of a byte: hundreds, tens, units (R203). -/
def decimalDigits (b : Byte) : List Byte :=
  [BitVec.ofNat 8 (b.toNat / 100), BitVec.ofNat 8 (b.toNat / 10 % 10), BitVec.ofNat 8 (b.toNat % 10)]

/-! ## The screen -/

/-- The framebuffer with every pixel off (spec/42_display.md R170). -/
def blankScreen : Framebuffer := Vector.replicate 64 (Vector.replicate 32 false)

/-- The pixel `FB[x][y]` (spec/10_state.md R26). -/
def pixel (fb : Framebuffer) (x : Fin 64) (y : Fin 32) : Bool := fb[x][y]

/-- The write `FB[x][y] <- b`. -/
def setPixel (fb : Framebuffer) (x : Fin 64) (y : Fin 32) (b : Bool) : Framebuffer := fb.set x (fb[x].set y b)

/-- A column of the screen: `n mod 64` (R173). -/
def screenColumn (n : Nat) : Fin 64 := Fin.ofNat 64 n

/-- A row of the screen: `n mod 32` (R173). -/
def screenRow (n : Nat) : Fin 32 := Fin.ofNat 32 n

/-- A drawing in progress: the framebuffer, and whether a pixel has gone from on to off. -/
abbrev Drawing := Framebuffer × Bool

/-- Toggle one pixel, and note a collision when it was on (R171). -/
def togglePixel (d : Drawing) (x : Fin 64) (y : Fin 32) : Drawing :=
  (setPixel d.1 x y (!pixel d.1 x y), d.2 || pixel d.1 x y)

/-- Draw one row of a sprite, its left end at column `vx`, on row `vy`: column `c` is bit `7 - c`, and every pixel
wraps on its own (R172, R173). -/
def drawRow (vx vy : Nat) (b : Byte) (d : Drawing) : Drawing :=
  (List.range 8).foldl
    (fun d c => if b.getLsbD (7 - c) then togglePixel d (screenColumn (vx + c)) (screenRow vy) else d) d

/-- Draw the rows of a sprite, the first at row `vy` (R171). -/
def drawRows (vx : Nat) : Nat → List Byte → Drawing → Drawing
  | _, [], d => d
  | vy, b :: bs, d => drawRows vx (vy + 1) bs (drawRow vx vy b d)

end Sys2Proof.Machine
end

