-- ==== Sys2Proof/Machine/Alu.lean ====
section
/-! DEFINITION. Register load, arithmetic, logic, shifts and random (spec/41_alu.md). All sources are read from the
state before the instruction (R153; spec/10_state.md R21 item 1); sums and differences wrap modulo 256 (R152). -/

namespace Sys2Proof.Machine

/-- `LD Vx, NN` (R140). -/
def execLdImm (x : Reg) (nn : Byte) (s : State) : Host.Outcome State Fault Refusal := .next (s.advance.setV x nn)

/-- `ADD Vx, NN`: no flag (R141). -/
def execAddImm (x : Reg) (nn : Byte) (s : State) : Host.Outcome State Fault Refusal :=
  .next (s.advance.setV x (s.getV x + nn))

/-- `LD Vx, Vy` (R142). -/
def execLdReg (x y : Reg) (s : State) : Host.Outcome State Fault Refusal := .next (s.advance.setV x (s.getV y))

/-- `OR Vx, Vy`: no flag (R143). -/
def execOrReg (x y : Reg) (s : State) : Host.Outcome State Fault Refusal :=
  .next (s.advance.setV x (s.getV x ||| s.getV y))

/-- `AND Vx, Vy`: no flag (R144). -/
def execAndReg (x y : Reg) (s : State) : Host.Outcome State Fault Refusal :=
  .next (s.advance.setV x (s.getV x &&& s.getV y))

/-- `XOR Vx, Vy`: no flag (R145). -/
def execXorReg (x y : Reg) (s : State) : Host.Outcome State Fault Refusal :=
  .next (s.advance.setV x (s.getV x ^^^ s.getV y))

/-- `ADD Vx, Vy`: VF is the carry, written first (R146). -/
def execAddReg (x y : Reg) (s : State) : Host.Outcome State Fault Refusal :=
  .next (s.advance.flagThenResult x (carryFlag (s.getV x) (s.getV y)) (s.getV x + s.getV y))

/-- `SUB Vx, Vy`: `V[x] - V[y]`, flag and order per `SUB_FLAG` (R147). -/
def execSub (x y : Reg) (s : State) : Host.Outcome State Fault Refusal :=
  .next (s.advance.writeDifference s.params.subFlag x (s.getV x) (s.getV y))

/-- `SHR Vx, Vy`: the shifted value is `V[y]`; VF first (R148). -/
def execShr (x y : Reg) (s : State) : Host.Outcome State Fault Refusal :=
  .next (s.advance.flagThenResult x (shiftedOutRight (s.getV y)) (s.getV y >>> 1))

/-- `SUBN Vx, Vy`: `V[y] - V[x]`, flag and order per `SUBN_FLAG` (R149). -/
def execSubn (x y : Reg) (s : State) : Host.Outcome State Fault Refusal :=
  .next (s.advance.writeDifference s.params.subnFlag x (s.getV y) (s.getV x))

/-- `SHL Vx, Vy`: the shifted value is `V[y]`; VF first (R150). -/
def execShl (x y : Reg) (s : State) : Host.Outcome State Fault Refusal :=
  .next (s.advance.flagThenResult x (shiftedOutLeft (s.getV y)) (s.getV y <<< 1))

/-- `RND Vx, NN`: the sampled random byte and `NN` (R151). -/
def execRnd (x : Reg) (nn : Byte) (s : State) : Host.Outcome State Fault Refusal :=
  .next (s.advance.setV x (s.rand &&& nn))

end Sys2Proof.Machine
end

