-- ==== Sys2Proof/Machine/Display.lean ====
section
/-! DEFINITION. The display instructions (spec/42_display.md). -/

namespace Sys2Proof.Machine

/-- `CLS`: every pixel off; VF is not written (R170). -/
def execCls (s : State) : Host.Outcome State Fault Refusal := .next { s.advance with fb := blankScreen }

/-- The drawing of the `n` sprite rows at `I`, at column `vx` and row `vy`, on the framebuffer of `s`. -/
def State.spriteDrawing (s : State) (vx vy n : Nat) : Drawing :=
  drawRows vx vy (s.readBytes s.idx.toNat n) (s.fb, false)

/-- `DRW Vx, Vy, N`: the coordinates and `I` are latched, all rows are range-checked, then the sprite is drawn and VF
is 1 exactly when a pixel went from on to off (R171). -/
def execDrw (x y : Reg) (n : Nibble) (s : State) : Host.Outcome State Fault Refusal :=
  let d := s.spriteDrawing (s.getV x).toNat (s.getV y).toNat n.toNat
  .next (s.guardData n.toNat { s.advance.setV flagReg (flagByte d.2) with fb := d.1 })

end Sys2Proof.Machine
end

