-- ==== Sys2Proof/Machine/Flow.lean ====
section
/-! DEFINITION. Control transfer, skips and no-ops (spec/40_flow.md). -/

namespace Sys2Proof.Machine

/-- `SYS NNN`: only the common advance (R120). -/
def execSys (_nnn : Addr) (s : State) : Host.Outcome State Fault Refusal := .next s.advance

/-- `RET`: pop the PC, or a `StackUnderflow` when no entry is in use (R121). -/
def execRet (s : State) : Host.Outcome State Fault Refusal :=
  .next (if s.sp.val = 0 then s.takeFault .stackUnderflow 0#17 else s.advance.popPc)

/-- `JP NNN` (R122). -/
def execJp (nnn : Addr) (s : State) : Host.Outcome State Fault Refusal := .next (s.advance.setPc (addrWord nnn))

/-- `CALL NNN`: push the advanced PC and jump, or a `StackOverflow` when 16 entries are in use (R123). -/
def execCall (nnn : Addr) (s : State) : Host.Outcome State Fault Refusal :=
  .next (if s.sp.val = 16 then s.takeFault .stackOverflow 0#17 else s.advance.pushPc.setPc (addrWord nnn))

/-- `JP V0, NNN`: to `NNN + V[0]`, not masked (R124). -/
def execJpV0 (nnn : Addr) (s : State) : Host.Outcome State Fault Refusal :=
  .next (s.advance.setPc (addrWord nnn + byteWord (s.getV 0)))

/-- `SE Vx, NN` (R125). -/
def execSeImm (x : Reg) (nn : Byte) (s : State) : Host.Outcome State Fault Refusal :=
  .next (s.advance.skipIf (s.getV x == nn))

/-- `SNE Vx, NN` (R126). -/
def execSneImm (x : Reg) (nn : Byte) (s : State) : Host.Outcome State Fault Refusal :=
  .next (s.advance.skipIf (s.getV x != nn))

/-- `SE Vx, Vy` (R127). -/
def execSeReg (x y : Reg) (s : State) : Host.Outcome State Fault Refusal :=
  .next (s.advance.skipIf (s.getV x == s.getV y))

/-- `SNE Vx, Vy` (R128). -/
def execSneReg (x y : Reg) (s : State) : Host.Outcome State Fault Refusal :=
  .next (s.advance.skipIf (s.getV x != s.getV y))

/-- `NOP`, family 8: only the common advance (R129). -/
def execNop8 (_x _y : Reg) (_n : Nibble) (s : State) : Host.Outcome State Fault Refusal := .next s.advance

/-- `NOP`, family E: only the common advance (R129). -/
def execNopE (_x : Reg) (_nn : Byte) (s : State) : Host.Outcome State Fault Refusal := .next s.advance

/-- `NOP`, family F: only the common advance (R129). -/
def execNopF (_x : Reg) (_nn : Byte) (s : State) : Host.Outcome State Fault Refusal := .next s.advance

end Sys2Proof.Machine
end

