-- ==== Sys2Proof/Machine/IndexMemory.lean ====
section
/-! DEFINITION. Index register and memory transfer instructions (spec/44_index_memory.md). -/

namespace Sys2Proof.Machine

/-- `LD I, NNN` (R200). -/
def execLdI (nnn : Addr) (s : State) : Host.Outcome State Fault Refusal := .next (s.advance.setIdx (addrWord nnn))

/-- `ADD I, Vx`: modulo 65536, no flag (R201). -/
def execAddI (x : Reg) (s : State) : Host.Outcome State Fault Refusal :=
  .next (s.advance.setIdx (s.idx + byteWord (s.getV x)))

/-- `LD F, Vx`: `V[x] * 5`, the register not masked (R202). -/
def execLdF (x : Reg) (s : State) : Host.Outcome State Fault Refusal :=
  .next (s.advance.setIdx (byteWord (s.getV x) * 5#16))

/-- `LD B, Vx`: hundreds, tens and units at `I`, `I + 1`, `I + 2` (R203). -/
def execLdB (x : Reg) (s : State) : Host.Outcome State Fault Refusal :=
  .next (s.guardData 3 (s.advance.storeBytes s.idx.toNat (decimalDigits (s.getV x))))

/-- `LD [I], Vx`: store `V[0]` to `V[x]` from `I` up, then add `x + 1` to `I` (R204). -/
def execLdMemVx (x : Reg) (s : State) : Host.Outcome State Fault Refusal :=
  .next (s.guardData (x.val + 1)
    ((s.advance.storeBytes s.idx.toNat (s.regsUpTo x)).setIdx (s.idx + BitVec.ofNat 16 (x.val + 1))))

/-- `LD Vx, [I]`: load `V[0]` to `V[x]` from `I` up (the `I` before the instruction) and add `x + 1` to `I` (R205). -/
def execLdVxMem (x : Reg) (s : State) : Host.Outcome State Fault Refusal :=
  .next (s.guardData (x.val + 1)
    ((s.advance.setIdx (s.idx + BitVec.ofNat 16 (x.val + 1))).loadRegs x s.idx.toNat))

end Sys2Proof.Machine
end

