-- ==== Sys2Proof/Machine/KeysTimers.lean ====
section
/-! DEFINITION. Keypad and timer instructions and the key-wait state machine (spec/43_keys_timers.md). -/

namespace Sys2Proof.Machine

/-- The check of a key index: a `KeyIndexFault` when it is above 15, else the instruction's effect `t` (R180, R181). -/
def State.guardKey (s : State) (k : Byte) (t : State) : State :=
  if 15 < k.toNat then s.takeFault .keyIndexFault (k.setWidth 17) else t

/-- `SKP Vx`: skip when key `V[x]` is pressed (R180). -/
def execSkp (x : Reg) (s : State) : Host.Outcome State Fault Refusal :=
  .next (s.guardKey (s.getV x) (s.advance.skipIf (s.key (s.getV x).toNat)))

/-- `SKNP Vx`: skip when key `V[x]` is not pressed (R181). -/
def execSknp (x : Reg) (s : State) : Host.Outcome State Fault Refusal :=
  .next (s.guardKey (s.getV x) (s.advance.skipIf (!s.key (s.getV x).toNat)))

/-- `LD Vx, DT` (R182). -/
def execLdVxDt (x : Reg) (s : State) : Host.Outcome State Fault Refusal := .next (s.advance.setV x s.dt)

/-- One poll of the key wait in state idle: note the lowest pressed key and wait for its release, or poll again (R183). -/
def State.pollIdle (s : State) (x : Reg) : State :=
  if s.ports.keys = 0#16 then s.rewind
  else { s.rewind with kwKey := lowestKey s.ports.keys, kwReg := x, kwWaiting := true }

/-- One poll of the key wait in state waiting: poll again while the noted key is held; once it is released, the target
register receives its number and execution goes on (R183). -/
def State.pollWaiting (s : State) : State :=
  if s.key s.kwKey.toNat then s.rewind else { s.setV s.kwReg (s.kwKey.setWidth 8) with kwWaiting := false }

/-- `LD Vx, K`: one poll of the key-wait state machine, after the common advance (R183). -/
def execLdVxK (x : Reg) (s : State) : Host.Outcome State Fault Refusal :=
  .next (if s.kwWaiting then s.advance.pollWaiting else s.advance.pollIdle x)

/-- `LD DT, Vx` (R184). -/
def execLdDtVx (x : Reg) (s : State) : Host.Outcome State Fault Refusal := .next (s.advance.setDt (s.getV x))

/-- `LD ST, Vx` (R185). -/
def execLdStVx (x : Reg) (s : State) : Host.Outcome State Fault Refusal := .next (s.advance.setSt (s.getV x))

end Sys2Proof.Machine
end

