-- ==== Sys2Proof/Machine/Tick.lean ====
section
/-! DEFINITION. The events: the CPU tick (spec/30_encoding.md R90), the display tick and the scheduler
(spec/60_exceptions.md R226 to R232), reset (spec/70_reset_and_hazards.md R260), and which of them the next step is. -/

namespace Sys2Proof.Machine

/-! ## The CPU tick -/

/-- The highest PC whose two bytes are in memory (R90). -/
def lastFetchPc : Nat := 0x0FFE

/-- `CpuTick`: fetch, decode and execute one instruction; nothing unless the status is `RUNNING` (R90, R223, R224). -/
def cpuTick (s : State) : Host.Outcome State Fault Refusal :=
  if s.status ≠ .running then .next s
  else if lastFetchPc < s.pc.toNat then .next (s.takeFault .fetchRangeFault (firstOutOfRange s.pc.toNat))
  else exec (decode s.fetchWord) s

/-! ## The display tick -/

/-- A timer counts down by one and stays at 0 (R226). -/
def countDown (t : Byte) : Byte := if t = 0#8 then 0#8 else t - 1#8

/-- Both timers count down (R226). -/
def State.countTimers (s : State) : State := { s with dt := countDown s.dt, st := countDown s.st }

/-- `emit Render(FB)` and, when the display fails, `Stop()` (R227, R232). -/
def State.emitRender (s : State) : State :=
  let t := { s with render := true }
  if s.ports.renderFail then t.stop else t

/-- `emit Buzz` and, when the sound fails, `Stop()` (R228, R232). -/
def State.emitBuzz (s : State) : State :=
  let t := { s with buzz := true }
  if s.ports.buzzFail then t.stop else t

/-- `DisplayTick`: countdown, frame, buzzer, in this order; a failing display ends it before the buzzer (R226). -/
def displayTick (s : State) : State :=
  if s.status ≠ .running then s
  else if s.ports.renderFail then s.countTimers.emitRender
  else if s.countTimers.st = 0#8 then s.countTimers.emitRender
  else s.countTimers.emitRender.emitBuzz

/-- The `fb` output port: the framebuffer, valid when `render` is raised (spec/10_state.md R32). -/
def State.fbPort (s : State) : Option Framebuffer := if s.render then some s.fb else none

/-! ## Reset -/

/-- The longest ROM: 3584 bytes, from 0x200 to 0xFFF (R262). -/
def maxRomLength : Nat := 3584

/-- The state after `Reset(rom)` (R260): nothing of the machine's state survives. The parameters, the time, the samples
and the events still in store are the host's (log entry 16). -/
def State.afterReset (s : State) (rom : List Byte) : State :=
  { State.reset with
    mem := Memory.writeBytes s.params.font [] 0x200 rom
    cpuMarker := s.timeNs
    dispMarker := s.timeNs
    ports := s.ports
    timeNs := s.timeNs
    params := s.params
    agenda := s.agenda
    inputs := s.inputs
    draws := s.draws
    freeTicks := s.freeTicks }

/-! ## The scheduler -/

/-- A rate converted to a whole number of nanoseconds, rounded down (R229). -/
def interval (hz : Nat) : Nat := 1000000000 / hz

/-- Whether the scheduler has no meaning at this time: a rate out of bounds (R230), or time going backwards (R264). -/
def State.timeRefusal (s : State) (now : Time) : Option Refusal :=
  if !(rateOk s.params.cpuHz && rateOk s.params.displayHz) then some .rateOutOfBounds
  else if now.toNat < s.timeNs.toNat then some .timeBackwards
  else none

/-- A CPU tick is due: `status == RUNNING and now - cpu_marker >= cpu_interval` (R229). -/
def State.cpuDue (s : State) (now : Time) : Bool :=
  s.status == .running && decide (s.cpuMarker.toNat + interval s.params.cpuHz ≤ now.toNat)

/-- A display tick is due: `status == RUNNING and now - disp_marker >= disp_interval` (R229). -/
def State.dispDue (s : State) (now : Time) : Bool :=
  s.status == .running && decide (s.dispMarker.toNat + interval s.params.displayHz ≤ now.toNat)

/-- What the next step does. A pass runs its due CPU ticks, then its due display ticks, one tick a step (R229, R231;
log entry 10). With no event in store the next step is a tick of the free schedule, of either kind (R240; log entry 2).
-/
def State.nextAction (s : State) : Action :=
  match s.agenda with
  | [] => if Config.freeDisplayTick s.freeTicks then .displayTick else .cpuTick
  | .cpuTick :: _ => .cpuTick
  | .displayTick :: _ => .displayTick
  | .reset rom :: _ => if rom.length ≤ maxRomLength then .reset rom else .refuse .romTooLong
  | .start t0 :: _ =>
    match s.timeRefusal t0 with
    | some r => .refuse r
    | none => .start
  | .pass now :: _ =>
    match s.timeRefusal now with
    | some r => .refuse r
    | none => if s.cpuDue now then .cpuTick else if s.dispDue now then .displayTick else .passDone

/-- The agenda, the time and the markers after the next step has begun: a pass stays in store while a tick of it is
due, and the tick's marker advances by one interval (R229, `Start` and `Pass`). In a run that has ended the scheduler
does not run, so the markers stay (R223; log entry 17). Two points the spec leaves open are the model's choice (DESIGN
CHOICE, log entry 20): a `Start` in the middle of a run sets both markers, as one at its beginning does, and a tick that
no pass gives, an event of its own or one of the free schedule, moves no marker and no time. -/
def State.takeEvent (s : State) : State :=
  match s.agenda with
  | [] => { s with freeTicks := s.freeTicks + 1 }
  | .cpuTick :: rest => { s with agenda := rest }
  | .displayTick :: rest => { s with agenda := rest }
  | .reset _ :: rest => { s with agenda := rest }
  | .start t0 :: rest =>
    if s.status = .running then { s with timeNs := t0, cpuMarker := t0, dispMarker := t0, agenda := rest }
    else { s with timeNs := t0, agenda := rest }
  | .pass now :: rest =>
    if s.cpuDue now then
      { s with timeNs := now, cpuMarker := s.cpuMarker + BitVec.ofNat 64 (interval s.params.cpuHz) }
    else if s.dispDue now then
      { s with timeNs := now, dispMarker := s.dispMarker + BitVec.ofNat 64 (interval s.params.displayHz) }
    else { s with timeNs := now, agenda := rest }

/-- Strobes last one step: a step that raises none has none. -/
def State.lowerStrobes (s : State) : State := { s with render := false, buzz := false }

/-- Sample the input ports for a tick: the next sample in store, or free values (log entry 3). -/
def State.samplePorts (s : State) : State :=
  match s.inputs with
  | p :: rest => { s with ports := p, inputs := rest }
  | [] =>
    { s with
      ports := { keys := Config.freeKeys s.draws, rnd := Config.freeRnd s.draws,
                 renderFail := Config.freeRenderFail s.draws, buzzFail := Config.freeBuzzFail s.draws }
      draws := s.draws + 1 }

/-- The state in which a tick runs: the event taken, the strobes low, the ports sampled. -/
def State.enterTick (s : State) : State := s.takeEvent.lowerStrobes.samplePorts

/-- One step of the machine: the next event. -/
def runAction (s : State) : Host.Outcome State Fault Refusal :=
  match s.nextAction with
  | .cpuTick => cpuTick s.enterTick
  | .displayTick => .next (displayTick s.enterTick)
  | .reset rom => .next (s.takeEvent.afterReset rom)
  | .start => .next s.takeEvent.lowerStrobes
  | .passDone => .next s.takeEvent.lowerStrobes
  | .refuse r => .refused r

/-! ## Placing an instruction where the next step fetches it -/

/-- Make the next step one that fetches: the status `RUNNING`, the PC one at which a fetch succeeds, a CPU tick at the
head of the agenda. What already is so stays as it is (log entry 18). -/
def State.readyToFetch (s : State) : State :=
  let t := { s with status := .running, pc := if lastFetchPc < s.pc.toNat then 0x0200#16 else s.pc }
  match t.agenda with
  | .cpuTick :: _ => t
  | _ => { t with agenda := .cpuTick :: t.agenda }

/-- The word stored where the next step fetches. -/
def State.placeWord (s : State) (w : Word) : State :=
  s.readyToFetch.storeBytes s.readyToFetch.pc.toNat [highByte w, lowByte w]

end Sys2Proof.Machine
end

