-- ==== Sys2Proof/Machine/Step.lean ====
section
/-! DEFINITION. The step of the machine. -/

namespace Sys2Proof.Machine

/-- One step: the next event of the machine (spec/00_scope.md R4). -/
def step (s : State) : Host.Outcome State Fault Refusal := runAction s

/-- `s` with the word of a table row stored where the next step fetches its instruction. -/
def State.withFetchWord (s : State) (nbits w : Nat) : State := s.placeWord (tableWord nbits w)

end Sys2Proof.Machine
end

