-- ==== Sys2Proof/Safety.lean ====
section
/-! DEFINITION. What holds of a sound state of the machine, in the terms the statements use: the canonical form of
memory, the reachable values of the PC and the stack, the key wait, the fault record and the scheduler markers;
and when the free schedule is fair. -/

namespace Sys2Proof.Machine

/-- Memory is in its canonical form (log entry 6). -/
abbrev State.MemoryOk (s : State) : Prop := Memory.wf s.params.font s.mem = true

/-- The reachable values of the PC and of what `CALL` has pushed (spec/10_state.md R35). -/
abbrev State.PcOk (s : State) : Prop := s.pc.toNat ≤ 0x10FE ∧ ∀ k : Fin 16, s.stack[k].toNat ≤ 0x1000

/-- While the key wait is on, the PC points at the `LD Vx, K` that began it, and its register is that instruction's
(spec/10_state.md R27; spec/43_keys_timers.md R183). -/
abbrev State.KeyWaitOk (s : State) : Prop :=
  s.kwWaiting = true → s.pc.toNat ≤ lastFetchPc ∧ decode s.fetchWord = .ldVxK s.kwReg

/-- The fault record agrees with the status (spec/60_exceptions.md R221; spec/10_state.md R28, R33): code 0 and zeroes
while `RUNNING`, code 6 exactly in `STOPPED`. -/
abbrev State.RecordOk (s : State) : Prop :=
  (s.status = .running ↔ s.faultCause = .none) ∧
  (s.status = .stopped ↔ s.faultCause = .collaboratorFailure) ∧
  (s.status = .running → s.faultPc = 0#16 ∧ s.faultAddr = 0#17)

/-- The scheduler markers are not ahead of the time (spec/60_exceptions.md R229). -/
abbrev State.MarkersOk (s : State) : Prop :=
  s.cpuMarker.toNat ≤ s.timeNs.toNat ∧ s.dispMarker.toNat ≤ s.timeNs.toNat

/-- The parameters are within their bounds (spec/00_scope.md R7). -/
abbrev State.ParamsOk (s : State) : Prop := s.params.wf = true

/-- A sound state: what every step keeps. -/
structure State.Inv (s : State) : Prop where
  memory : s.MemoryOk
  pc : s.PcOk
  keyWait : s.KeyWaitOk
  record : s.RecordOk
  markers : s.MarkersOk
  params : s.ParamsOk

/-- The free schedule is fair: each of the two ticks comes again and again (spec/60_exceptions.md R240). A premise for a
claim about fair runs; the model does not assume it (log entry 2). -/
abbrev FairSchedule : Prop :=
  (∀ n : Nat, ∃ m, n ≤ m ∧ Config.freeDisplayTick m = true) ∧ ∀ n : Nat, ∃ m, n ≤ m ∧ Config.freeDisplayTick m = false

end Sys2Proof.Machine
end

