-- ==== Sys2Proof/Certificates/Slice0/Obligations.lean ====
section
/-! DEFINITION. The statements about the machine, each a rule of spec/ or what follows from several.
`s.v[x]` is the register V[x] of the state `s`, and `s.readByte a` its memory's byte at address `a`. -/

namespace Sys2Proof.Claims

open Sys2Proof.Machine

/-! ## Words the statements use -/

/-- The words that do nothing but advance PC by 2, as spec/30_encoding.md R99 lists them. -/
def NoOpWord (w : Word) : Prop :=
  (opField w = 0x0#4 ∧ w ≠ 0x00E0#16 ∧ w ≠ 0x00EE#16) ∨
  (opField w = 0x8#4 ∧ nField w ∈ [0x8#4, 0x9#4, 0xA#4, 0xB#4, 0xC#4, 0xD#4, 0xF#4]) ∨
  (opField w = 0xE#4 ∧ nnField w ∉ [0x9E#8, 0xA1#8]) ∨
  (opField w = 0xF#4 ∧ nnField w ∉ [0x07#8, 0x0A#8, 0x15#8, 0x18#8, 0x1E#8, 0x29#8, 0x33#8, 0x55#8, 0x65#8])

/-- The state after the fault entry of spec/60_exceptions.md R222, from the state before the tick. -/
def Faulted (s : State) (cause : Cause) (addr : BitVec 17) : State :=
  { s with status := .fault, faultCause := cause, faultPc := s.pc, faultAddr := addr }

/-- The lowest out-of-range address of an access from `base` up (R221): 0x1000 when `base` is in memory, else `base`. -/
def LowestOutOfRange (base : Word) : BitVec 17 := if base.toNat ≤ 0x0FFF then 0x1000#17 else base.setWidth 17

/-- The fault an instruction raises in a state and the address it records, or none: the table of R221. -/
def FaultOf (i : Instr) (s : State) : Option (Cause × BitVec 17) :=
  match i with
  | .ret => if s.sp.val = 0 then some (.stackUnderflow, 0#17) else none
  | .call _ => if s.sp.val = 16 then some (.stackOverflow, 0#17) else none
  | .skp x => if 15 < s.v[x].toNat then some (.keyIndexFault, s.v[x].setWidth 17) else none
  | .sknp x => if 15 < s.v[x].toNat then some (.keyIndexFault, s.v[x].setWidth 17) else none
  | .drw _ _ n =>
    if 0 < n.toNat ∧ 0x0FFF < s.idx.toNat + n.toNat - 1 then some (.dataRangeFault, LowestOutOfRange s.idx) else none
  | .ldB _ => if 0x0FFF < s.idx.toNat + 2 then some (.dataRangeFault, LowestOutOfRange s.idx) else none
  | .ldMemVx x => if 0x0FFF < s.idx.toNat + x.val then some (.dataRangeFault, LowestOutOfRange s.idx) else none
  | .ldVxMem x => if 0x0FFF < s.idx.toNat + x.val then some (.dataRangeFault, LowestOutOfRange s.idx) else none
  | _ => none

/-- The flag of a subtraction `a - b` of bytes (spec/41_alu.md R147, R149), on integers. -/
def DifferenceFlag (mode : FlagMode) (a b : Nat) : Byte :=
  match mode with
  | .resultSign => if ((a : Int) - b) % 256 < 128 then 0x01#8 else 0x00#8
  | .noBorrow => if b ≤ a then 0x01#8 else 0x00#8

/-- What a subtraction leaves in the registers: `a - b` modulo 256 in register `x` and the flag in VF, and with
`x = 15` the flag in `RESULT_SIGN` mode, the difference in `NO_BORROW` mode (spec/10_state.md R21). -/
def Subtracted (mode : FlagMode) (x : Reg) (a b : Byte) (s t : State) : Prop :=
  t = { s with pc := s.pc + 2#16, v := t.v } ∧
  (∀ r : Reg, r ≠ x → r ≠ 15 → t.v[r] = s.v[r]) ∧
  (x ≠ 15 → (t.v[x].toNat : Int) = ((a.toNat : Int) - b.toNat) % 256 ∧
    t.v[15] = DifferenceFlag mode a.toNat b.toNat) ∧
  (x = 15 → mode = .resultSign → t.v[15] = DifferenceFlag mode a.toNat b.toNat) ∧
  (x = 15 → mode = .noBorrow → (t.v[15].toNat : Int) = ((a.toNat : Int) - b.toNat) % 256)

/-- The sprite of `n` rows at `I`, drawn at column `vx` and row `vy`, has a set bit on the pixel `(x, y)`
(spec/42_display.md R172, R173). -/
def SpriteOn (s : State) (vx vy n : Nat) (x : Fin 64) (y : Fin 32) : Prop :=
  ∃ r c : Nat, r < n ∧ c < 8 ∧ (vx + c) % 64 = x.val ∧ (vy + r) % 32 = y.val ∧
    (s.readByte (s.idx.toNat + r)).getLsbD (7 - c) = true

/-- `k` is the lowest-numbered pressed key. -/
def LowestPressed (keys : BitVec 16) (k : Nat) : Prop :=
  k < 16 ∧ keys.getLsbD k = true ∧ ∀ j < k, keys.getLsbD j = false

/-- The register an instruction names as its destination, in a state: `X`, or for the key wait its target register. -/
def NamesDestination (i : Instr) (s : State) (r : Reg) : Prop :=
  match i with
  | .ldImm x _ => r = x
  | .addImm x _ => r = x
  | .ldReg x _ => r = x
  | .orReg x _ => r = x
  | .andReg x _ => r = x
  | .xorReg x _ => r = x
  | .addReg x _ => r = x
  | .sub x _ => r = x
  | .shr x _ => r = x
  | .subn x _ => r = x
  | .shl x _ => r = x
  | .rnd x _ => r = x
  | .ldVxDt x => r = x
  | .ldVxK _ => s.kwWaiting = true ∧ r = s.kwReg
  | .ldVxMem x => r ≤ x
  | _ => False

/-- The instructions that write VF as a flag (R21). -/
def WritesFlag (i : Instr) : Prop :=
  match i with
  | .addReg _ _ => True
  | .sub _ _ => True
  | .shr _ _ => True
  | .subn _ _ => True
  | .shl _ _ => True
  | .drw _ _ _ => True
  | _ => False

end Sys2Proof.Claims

open Sys2Proof Sys2Proof.Machine Sys2Proof.Claims

/-! ## Encoding and decoding -/

/-- Decode and encode agree: no bit of an encoding is dropped (spec/30_encoding.md R92, R94). -/
def Obligations.DecodeOfEncodeIsTheInstruction : Prop :=
  ∀ i : Instr, i.wf = true → decode (encode i) = i

/-- The other direction: a word is the encoding of its instruction, but for the low nibble of families 5 and 9, which
is not examined (spec decision D10; log entry 13). -/
def Obligations.EncodeOfDecodeIsTheWord : Prop :=
  ∀ w : Word, encode (decode w) = if opField w = 0x5#4 ∨ opField w = 0x9#4 then w &&& 0xFFF0#16 else w

/-- Every word decodes to a well-formed instruction: a general row never takes a word of an assigned one (families 0,
8, E and F of spec/30_encoding.md, with the spec's decisions D12 and D27). -/
def Obligations.DecodedInstructionIsWellFormed : Prop := ∀ w : Word, (decode w).wf = true

/-- The decoder of R94 and the ordered table of R101 agree: the first matching row is the decoded instruction's. -/
def Obligations.FirstMatchingRowIsTheDecodedOne : Prop := ∀ w : Word, winningRow w = some (decode w).row

/-- Words of spec/95_test_vectors.md section 3 decode to what that section says. -/
def Obligations.SpecWordsDecodeAsListed : Prop :=
  decode 0x00E0#16 = .cls ∧ decode 0x01E0#16 = .sys 0x1E0#12 ∧ decode 0x2ABC#16 = .call 0xABC#12 ∧
  decode 0x5AB7#16 = .seReg 0xA 0xB ∧ decode 0x8ABE#16 = .shl 0xA 0xB ∧ decode 0x8AB9#16 = .nop8 0xA 0xB 0x9#4 ∧
  decode 0xD125#16 = .drw 0x1 0x2 0x5#4 ∧ decode 0xE5A1#16 = .sknp 0x5 ∧ decode 0xE19F#16 = .nopE 0x1 0x9F#8 ∧
  decode 0xF30A#16 = .ldVxK 0x3 ∧ decode 0xF355#16 = .ldMemVx 0x3 ∧ decode 0xF375#16 = .nopF 0x3 0x75#8

/-! ## Control transfer, skips and no-ops (spec/40_flow.md) -/

/-- `SYS` and the unknown encodings do nothing but advance PC by 2 (R120, R129), as words of R99's list and as
instructions with any fields. -/
def Obligations.NoOpsOnlyAdvancePc : Prop :=
  (∀ w : Word, NoOpWord w → ∀ s : State, exec (decode w) s = .next { s with pc := s.pc + 2#16 }) ∧
  ∀ (nnn : Addr) (x y : Reg) (n : Nibble) (nn : Byte) (s : State),
    exec (.sys nnn) s = .next { s with pc := s.pc + 2#16 } ∧
    exec (.nop8 x y n) s = .next { s with pc := s.pc + 2#16 } ∧
    exec (.nopE x nn) s = .next { s with pc := s.pc + 2#16 } ∧
    exec (.nopF x nn) s = .next { s with pc := s.pc + 2#16 }

/-- `RET` with entries in use pops the PC; the popped slot keeps its value (R121). -/
def Obligations.RetPopsThePc : Prop :=
  ∀ (s : State) (k : Fin 16), s.sp.val = k.val + 1 →
    ∃ t, exec .ret s = .next t ∧ t.sp.val = k.val ∧ t.pc = s.stack[k] ∧ t = { s with sp := t.sp, pc := t.pc }

/-- `CALL` with a slot free pushes the address after it and jumps (R123). -/
def Obligations.CallPushesAndJumps : Prop :=
  ∀ (nnn : Addr) (s : State) (k : Fin 16), s.sp.val = k.val →
    ∃ t, exec (.call nnn) s = .next t ∧ t.sp.val = k.val + 1 ∧ t.stack[k] = s.pc + 2#16 ∧
      (∀ j : Fin 16, j ≠ k → t.stack[j] = s.stack[j]) ∧ t.pc.toNat = nnn.toNat ∧
      t = { s with sp := t.sp, stack := t.stack, pc := t.pc }

/-- A `CALL` with 16 entries in use and a `RET` with none fault, and nothing else changes (spec decision D3). -/
def Obligations.StackFaultsChangeNothingElse : Prop :=
  (∀ s : State, s.sp.val = 0 → exec .ret s = .next (Faulted s .stackUnderflow 0#17)) ∧
  ∀ (nnn : Addr) (s : State), s.sp.val = 16 → exec (.call nnn) s = .next (Faulted s .stackOverflow 0#17)

/-- `CALL` followed by `RET`: back at the instruction after the call, SP as it was (the property quoted in R123). -/
def Obligations.RetUndoesCall : Prop :=
  ∀ (nnn : Addr) (s : State), s.sp.val < 16 →
    ∃ t u, exec (.call nnn) s = .next t ∧ exec .ret t = .next u ∧
      u = { s with pc := s.pc + 2#16, stack := t.stack }

/-- `JP NNN` and `JP V0, NNN`: the new PC. The sum of `JP V0` is not masked (spec decision D13). -/
def Obligations.JumpsSetThePc : Prop :=
  ∀ (nnn : Addr) (s : State),
    (∃ t, exec (.jp nnn) s = .next t ∧ t.pc.toNat = nnn.toNat ∧ t = { s with pc := t.pc }) ∧
    ∃ t, exec (.jpV0 nnn) s = .next t ∧ t.pc.toNat = nnn.toNat + s.v[0].toNat ∧ t = { s with pc := t.pc }

/-- The four register skips: two or four past the instruction, by the comparison. Which opcode skips on equal is
marked general knowledge in spec/40_flow.md; `N` is ignored (log entry 13). -/
def Obligations.SkipsCompareRegisters : Prop :=
  ∀ (x y : Reg) (nn : Byte) (s : State),
    exec (.seImm x nn) s = .next { s with pc := if s.v[x] = nn then s.pc + 4#16 else s.pc + 2#16 } ∧
    exec (.sneImm x nn) s = .next { s with pc := if s.v[x] ≠ nn then s.pc + 4#16 else s.pc + 2#16 } ∧
    exec (.seReg x y) s = .next { s with pc := if s.v[x] = s.v[y] then s.pc + 4#16 else s.pc + 2#16 } ∧
    exec (.sneReg x y) s = .next { s with pc := if s.v[x] ≠ s.v[y] then s.pc + 4#16 else s.pc + 2#16 }

/-! ## Registers and arithmetic (spec/41_alu.md) -/

/-- `LD Vx, NN`, `LD Vx, Vy`, `OR`, `AND`, `XOR`: the result in `V[x]`, no flag, nothing else (R140, R142 to R145). -/
def Obligations.LoadsAndLogicWriteVx : Prop :=
  ∀ (x y : Reg) (nn : Byte) (s : State),
    exec (.ldImm x nn) s = .next { s with pc := s.pc + 2#16, v := s.v.set x nn } ∧
    exec (.ldReg x y) s = .next { s with pc := s.pc + 2#16, v := s.v.set x s.v[y] } ∧
    exec (.orReg x y) s = .next { s with pc := s.pc + 2#16, v := s.v.set x (s.v[x] ||| s.v[y]) } ∧
    exec (.andReg x y) s = .next { s with pc := s.pc + 2#16, v := s.v.set x (s.v[x] &&& s.v[y]) } ∧
    exec (.xorReg x y) s = .next { s with pc := s.pc + 2#16, v := s.v.set x (s.v[x] ^^^ s.v[y]) }

/-- `ADD Vx, NN` wraps modulo 256; that it writes no flag is an inference R141 marks as its own. -/
def Obligations.AddImmediateWrapsWithoutFlag : Prop :=
  ∀ (x : Reg) (nn : Byte) (s : State), ∃ b : Byte, b.toNat = (s.v[x].toNat + nn.toNat) % 256 ∧
    exec (.addImm x nn) s = .next { s with pc := s.pc + 2#16, v := s.v.set x b }

/-- `ADD Vx, Vy`: the truncated sum in `V[x]`, VF 1 exactly when the sum exceeds 255; with `x = 15` the sum survives
(R146). -/
def Obligations.AddSetsTheCarry : Prop :=
  ∀ (x y : Reg) (s : State), ∃ t, exec (.addReg x y) s = .next t ∧
    t = { s with pc := s.pc + 2#16, v := t.v } ∧
    t.v[x].toNat = (s.v[x].toNat + s.v[y].toNat) % 256 ∧
    (x ≠ 15 → t.v[15] = if 255 < s.v[x].toNat + s.v[y].toNat then 0x01#8 else 0x00#8) ∧
    ∀ r : Reg, r ≠ x → r ≠ 15 → t.v[r] = s.v[r]

/-- `SUB Vx, Vy` in both flag modes, with any registers (R147; the spec's decision D5 makes the mode a parameter). -/
def Obligations.SubSubtractsInBothModes : Prop :=
  ∀ (x y : Reg) (s : State), ∃ t, exec (.sub x y) s = .next t ∧ Subtracted s.params.subFlag x s.v[x] s.v[y] s t

/-- `SUBN Vx, Vy`, the reverse subtraction, in both flag modes, with any registers (R149; spec decision D6, and the
meaning itself marked general knowledge). -/
def Obligations.SubnSubtractsInBothModes : Prop :=
  ∀ (x y : Reg) (s : State), ∃ t, exec (.subn x y) s = .next t ∧ Subtracted s.params.subnFlag x s.v[y] s.v[x] s t

/-- The two flag modes of `SUB` agree exactly when the difference lies in -128 to 127 (an inference R147 marks as its
own). -/
def Obligations.FlagModesAgreeOnSmallDifferences : Prop :=
  ∀ (x y : Reg) (s t u : State), x ≠ 15 →
    exec (.sub x y) { s with params := { s.params with subFlag := .resultSign } } = .next t →
    exec (.sub x y) { s with params := { s.params with subFlag := .noBorrow } } = .next u →
    (t.v[15] = u.v[15] ↔
      -128 ≤ (s.v[x].toNat : Int) - s.v[y].toNat ∧ (s.v[x].toNat : Int) - s.v[y].toNat ≤ 127)

/-- `SHR` and `SHL` shift `V[y]`, not `V[x]`, and VF is the bit shifted out; with `x = 15` the result survives (R148,
R150). -/
def Obligations.ShiftsMoveVyIntoVx : Prop :=
  ∀ (x y : Reg) (s : State),
    (∃ t, exec (.shr x y) s = .next t ∧ t = { s with pc := s.pc + 2#16, v := t.v } ∧
      t.v[x].toNat = s.v[y].toNat / 2 ∧ (x ≠ 15 → t.v[15].toNat = s.v[y].toNat % 2) ∧
      ∀ r : Reg, r ≠ x → r ≠ 15 → t.v[r] = s.v[r]) ∧
    ∃ t, exec (.shl x y) s = .next t ∧ t = { s with pc := s.pc + 2#16, v := t.v } ∧
      t.v[x].toNat = s.v[y].toNat * 2 % 256 ∧ (x ≠ 15 → t.v[15].toNat = s.v[y].toNat / 128) ∧
      ∀ r : Reg, r ≠ x → r ≠ 15 → t.v[r] = s.v[r]

/-- `RND Vx, NN`: the sampled byte and `NN`, whatever the byte (spec decision D19); no bit outside `NN` is set. -/
def Obligations.RandomByteIsMasked : Prop :=
  ∀ (x : Reg) (nn : Byte) (s : State), ∃ b : Byte, b = s.ports.rnd &&& nn ∧ b &&& ~~~nn = 0x00#8 ∧
    exec (.rnd x nn) s = .next { s with pc := s.pc + 2#16, v := s.v.set x b }

/-! ## Display (spec/42_display.md) -/

/-- `CLS` turns every pixel off and writes nothing else (R170). -/
def Obligations.ClearTurnsEveryPixelOff : Prop :=
  ∀ s : State, ∃ t, exec .cls s = .next t ∧ (∀ (x : Fin 64) (y : Fin 32), t.fb[x][y] = false) ∧
    t = { s with pc := s.pc + 2#16, fb := t.fb }

/-- `DRW` with all its rows in memory, or with none: exactly the pixels the sprite covers are toggled, each wrapping
on its own (R173), VF is 1 exactly when one of them was on, and nothing else changes. The latched coordinates (log
entry 11), the bit order and the case `N = 0` are the spec's decisions D7, D22 and D23. -/
def Obligations.DrawTogglesExactlyTheSprite : Prop :=
  ∀ (x y : Reg) (n : Nibble) (s : State), (n = 0#4 ∨ s.idx.toNat + n.toNat - 1 ≤ 0x0FFF) →
    ∃ t, exec (.drw x y n) s = .next t ∧
      (∀ (px : Fin 64) (py : Fin 32),
        (SpriteOn s s.v[x].toNat s.v[y].toNat n.toNat px py → t.fb[px][py] = !s.fb[px][py]) ∧
        (¬ SpriteOn s s.v[x].toNat s.v[y].toNat n.toNat px py → t.fb[px][py] = s.fb[px][py])) ∧
      ((∃ px py, SpriteOn s s.v[x].toNat s.v[y].toNat n.toNat px py ∧ s.fb[px][py] = true) → t.v[15] = 0x01#8) ∧
      ((¬ ∃ px py, SpriteOn s s.v[x].toNat s.v[y].toNat n.toNat px py ∧ s.fb[px][py] = true) → t.v[15] = 0x00#8) ∧
      (∀ r : Reg, r ≠ 15 → t.v[r] = s.v[r]) ∧
      t = { s with pc := s.pc + 2#16, v := t.v, fb := t.fb }

/-- "Drawing the same sprite twice at the same place restores `FB` exactly" (R171); and when the first draw met no
pixel that was on, the second one's VF is 1 exactly when the sprite has a set bit. -/
def Obligations.DrawingTwiceRestoresTheScreen : Prop :=
  ∀ (x y : Reg) (n : Nibble) (s t u : State), (n = 0#4 ∨ s.idx.toNat + n.toNat - 1 ≤ 0x0FFF) →
    exec (.drw x y n) s = .next t → t.v[x] = s.v[x] → t.v[y] = s.v[y] → exec (.drw x y n) t = .next u →
      u.fb = s.fb ∧
      (t.v[15] = 0x00#8 → (u.v[15] = 0x01#8 ↔
        ∃ r c : Nat, r < n.toNat ∧ c < 8 ∧ (s.readByte (s.idx.toNat + r)).getLsbD (7 - c) = true))

/-! ## Keypad and timers (spec/43_keys_timers.md) -/

/-- `SKP` and `SKNP` with a key index of 0 to 15 skip by the sampled state of that key (R180, R181, R186). -/
def Obligations.KeySkipsReadTheSampledKey : Prop :=
  ∀ (x : Reg) (s : State), s.v[x].toNat ≤ 15 →
    exec (.skp x) s = .next { s with
      pc := if s.ports.keys.getLsbD s.v[x].toNat = true then s.pc + 4#16 else s.pc + 2#16 } ∧
    exec (.sknp x) s = .next { s with
      pc := if s.ports.keys.getLsbD s.v[x].toNat = true then s.pc + 2#16 else s.pc + 4#16 }

/-- A key index above 15 faults and is recorded (spec decision D4). -/
def Obligations.KeyIndexAbove15Faults : Prop :=
  ∀ (x : Reg) (s : State), 15 < s.v[x].toNat →
    exec (.skp x) s = .next (Faulted s .keyIndexFault (s.v[x].setWidth 17)) ∧
    exec (.sknp x) s = .next (Faulted s .keyIndexFault (s.v[x].setWidth 17))

/-- `LD Vx, DT`, `LD DT, Vx`, `LD ST, Vx` (R182, R184, R185). -/
def Obligations.TimerInstructionsCopyBytes : Prop :=
  ∀ (x : Reg) (s : State),
    exec (.ldVxDt x) s = .next { s with pc := s.pc + 2#16, v := s.v.set x s.dt } ∧
    exec (.ldDtVx x) s = .next { s with pc := s.pc + 2#16, dt := s.v[x] } ∧
    exec (.ldStVx x) s = .next { s with pc := s.pc + 2#16, st := s.v[x] }

/-- One poll of `LD Vx, K` in each of its four cases: idle without a key, idle with a key, waiting with the key held,
waiting with it released (R183). The lowest pressed key is spec decision D9 (log entry 12); that `kwReg` and `kwKey`
keep their values after the wait is the model's choice (log entry 14). -/
def Obligations.KeyWaitPolls : Prop :=
  ∀ (x : Reg) (s : State),
    (s.kwWaiting = false → s.ports.keys = 0#16 → exec (.ldVxK x) s = .next s) ∧
    (∀ k : Nat, s.kwWaiting = false → LowestPressed s.ports.keys k →
      exec (.ldVxK x) s = .next { s with kwWaiting := true, kwReg := x, kwKey := BitVec.ofNat 4 k }) ∧
    (s.kwWaiting = true → s.ports.keys.getLsbD s.kwKey.toNat = true → exec (.ldVxK x) s = .next s) ∧
    (s.kwWaiting = true → s.ports.keys.getLsbD s.kwKey.toNat = false →
      exec (.ldVxK x) s = .next { s with
        pc := s.pc + 2#16, kwWaiting := false, v := s.v.set s.kwReg (s.kwKey.setWidth 8) })

/-- "The shortest completion is two ticks" (R183): a key seen pressed at one tick and released at the next ends the
wait, its number in the register. The lowest pressed key is spec decision D9 (log entry 12); the two ticks and the two
samples in store are the model's (log entries 2, 3). -/
def Obligations.KeyWaitEndsTwoTicksAfterAPress : Prop :=
  ∀ (x : Reg) (s : State) (p q : Ports) (k : Nat), s.status = .running →
    s.agenda = [.cpuTick, .cpuTick] → s.inputs = [p, q] → s.pc.toNat ≤ 0x0FFE →
    decode (s.readByte s.pc.toNat ++ s.readByte (s.pc.toNat + 1)) = .ldVxK x →
    s.kwWaiting = false → LowestPressed p.keys k → q.keys.getLsbD k = false →
    ∃ t, core.run 2 s = .next t ∧ t.v[x].toNat = k ∧ t.kwWaiting = false ∧ t.pc = s.pc + 2#16 ∧
      t.status = .running ∧ ∀ r : Reg, r ≠ x → t.v[r] = s.v[r]

/-! ## Index register and memory (spec/44_index_memory.md) -/

/-- `LD I, NNN` (its meaning marked general knowledge), `ADD I, Vx`, `LD F, Vx`: the new `I`; no flag, no mask
(spec/44_index_memory.md). -/
def Obligations.IndexInstructionsSetI : Prop :=
  ∀ (nnn : Addr) (x : Reg) (s : State),
    (∃ t, exec (.ldI nnn) s = .next t ∧ t.idx.toNat = nnn.toNat ∧
      t = { s with pc := s.pc + 2#16, idx := t.idx }) ∧
    (∃ t, exec (.addI x) s = .next t ∧ t.idx.toNat = (s.idx.toNat + s.v[x].toNat) % 65536 ∧
      t = { s with pc := s.pc + 2#16, idx := t.idx }) ∧
    ∃ t, exec (.ldF x) s = .next t ∧ t.idx.toNat = s.v[x].toNat * 5 ∧
      t = { s with pc := s.pc + 2#16, idx := t.idx }

/-- `LD B, Vx` with its three bytes in memory stores the decimal digits at `I` to `I + 2` and no other byte (R203). -/
def Obligations.DecimalDigitsAreStored : Prop :=
  ∀ (x : Reg) (s : State), s.idx.toNat + 2 ≤ 0x0FFF →
    ∃ t, exec (.ldB x) s = .next t ∧
      (t.readByte s.idx.toNat).toNat = s.v[x].toNat / 100 ∧
      (t.readByte (s.idx.toNat + 1)).toNat = s.v[x].toNat / 10 % 10 ∧
      (t.readByte (s.idx.toNat + 2)).toNat = s.v[x].toNat % 10 ∧
      (∀ a : Nat, a < s.idx.toNat ∨ s.idx.toNat + 2 < a → t.readByte a = s.readByte a) ∧
      t = { s with pc := s.pc + 2#16, mem := t.mem }

/-- `LD [I], Vx` with all its bytes in memory stores `V[0]` to `V[x]` from `I` up and no other byte, and adds `x + 1`
to `I` (R204). -/
def Obligations.RegistersAreStoredFromI : Prop :=
  ∀ (x : Reg) (s : State), s.idx.toNat + x.val ≤ 0x0FFF →
    ∃ t, exec (.ldMemVx x) s = .next t ∧
      (∀ r : Reg, r ≤ x → t.readByte (s.idx.toNat + r.val) = s.v[r]) ∧
      (∀ a : Nat, a < s.idx.toNat ∨ s.idx.toNat + x.val < a → t.readByte a = s.readByte a) ∧
      t.idx.toNat = s.idx.toNat + x.val + 1 ∧
      t = { s with pc := s.pc + 2#16, mem := t.mem, idx := t.idx }

/-- `LD Vx, [I]` with all its bytes in memory loads `V[0]` to `V[x]` from `I` up and no other register, and adds `x +
1` to `I`; memory is unchanged (R205). -/
def Obligations.RegistersAreLoadedFromI : Prop :=
  ∀ (x : Reg) (s : State), s.idx.toNat + x.val ≤ 0x0FFF →
    ∃ t, exec (.ldVxMem x) s = .next t ∧
      (∀ r : Reg, r ≤ x → t.v[r] = s.readByte (s.idx.toNat + r.val)) ∧
      (∀ r : Reg, x < r → t.v[r] = s.v[r]) ∧
      t.idx.toNat = s.idx.toNat + x.val + 1 ∧
      t = { s with pc := s.pc + 2#16, v := t.v, idx := t.idx }

/-- The four instructions that access data, with a byte of the access outside memory, fault: nothing drawn, stored or
loaded, VF and `I` unchanged, the lowest out-of-range address recorded (spec decision D2). -/
def Obligations.DataAccessOutsideMemoryFaults : Prop :=
  ∀ (x y : Reg) (n : Nibble) (s : State),
    (n ≠ 0#4 → 0x0FFF < s.idx.toNat + n.toNat - 1 →
      exec (.drw x y n) s = .next (Faulted s .dataRangeFault (LowestOutOfRange s.idx))) ∧
    (0x0FFF < s.idx.toNat + 2 →
      exec (.ldB x) s = .next (Faulted s .dataRangeFault (LowestOutOfRange s.idx))) ∧
    (0x0FFF < s.idx.toNat + x.val →
      exec (.ldMemVx x) s = .next (Faulted s .dataRangeFault (LowestOutOfRange s.idx)) ∧
      exec (.ldVxMem x) s = .next (Faulted s .dataRangeFault (LowestOutOfRange s.idx)))

/-- Registers stored and loaded again from the same place come back, whatever the registers held in between (R204,
R205). -/
def Obligations.LoadBringsBackWhatWasStored : Prop :=
  ∀ (x : Reg) (s : State) (w : Vector Byte 16), s.idx.toNat + x.val ≤ 0x0FFF →
    ∃ t u, exec (.ldMemVx x) s = .next t ∧ exec (.ldVxMem x) { t with v := w, idx := s.idx } = .next u ∧
      (∀ r : Reg, r ≤ x → u.v[r] = s.v[r]) ∧ (∀ r : Reg, x < r → u.v[r] = w[r]) ∧ u.mem = t.mem

/-- "A store is seen by every later fetch, including the fetch of the very next `CpuTick`", an inference R71 of
spec/20_memory.md marks as its own: registers stored over the next instruction are that instruction, the one at the
lower address being bits 15 to 8 of it (R64). -/
def Obligations.StoreIsSeenByTheNextFetch : Prop :=
  ∀ (x : Reg) (s : State), 1 ≤ x.val → s.idx.toNat = s.pc.toNat + 2 → s.idx.toNat + x.val ≤ 0x0FFF →
    ∃ t, exec (.ldMemVx x) s = .next t ∧ t.pc = s.pc + 2#16 ∧
      t.readByte t.pc.toNat = s.v[0] ∧ t.readByte (t.pc.toNat + 1) = s.v[1] ∧ t.fetchWord = s.v[0] ++ s.v[1]

/-! ## All instructions -/

/-- Every instruction answers a next state in every state: none is refused, none stops the machine; a fault of the
spec is a next state too (log entry 1). -/
def Obligations.EveryInstructionAnswersANextState : Prop := ∀ (i : Instr) (s : State), ∃ t, exec i s = .next t

/-- The faults are those of the table of R221 (spec decisions D2, D3, D4), and they are precise: everything but the
status and the record keeps its value; without a fault the status and the record keep theirs (R222). -/
def Obligations.FaultsAreTheListedOnesAndPrecise : Prop :=
  ∀ (i : Instr) (s t : State), exec i s = .next t →
    match FaultOf i s with
    | some (cause, addr) => t = Faulted s cause addr
    | none => t.status = s.status ∧ t.faultCause = s.faultCause ∧ t.faultPc = s.faultPc ∧ t.faultAddr = s.faultAddr

/-- A register changes only as a destination the instruction names; VF changes also under the six flag instructions,
and under no other (spec/10_state.md R20, R21). -/
def Obligations.RegistersChangeOnlyAsNamed : Prop :=
  ∀ (i : Instr) (s t : State), exec i s = .next t →
    ∀ r : Reg, ¬ NamesDestination i s r → (r = 15 → ¬ WritesFlag i) → t.v[r] = s.v[r]

/-- The framebuffer is written by `CLS` and `DRW` alone, the stack by `CALL` and `RET` alone, memory by `LD B` and `LD
[I], Vx` alone (spec/10_state.md R24, R26). -/
def Obligations.ScreenStackAndMemoryWriters : Prop :=
  ∀ (i : Instr) (s t : State), exec i s = .next t →
    (t.fb = s.fb ∨ i = .cls ∨ ∃ x y n, i = .drw x y n) ∧
    ((t.sp = s.sp ∧ t.stack = s.stack) ∨ i = .ret ∨ ∃ nnn, i = .call nnn) ∧
    (t.mem = s.mem ∨ (∃ x, i = .ldB x) ∨ ∃ x, i = .ldMemVx x)

/-- `I` is written by its five instructions alone, each timer by its own load alone, the key-wait state by `LD Vx, K`
alone (spec/10_state.md R22, R25, R27). -/
def Obligations.IndexTimerAndKeyWaitWriters : Prop :=
  ∀ (i : Instr) (s t : State), exec i s = .next t →
    (t.idx = s.idx ∨ (∃ nnn, i = .ldI nnn) ∨ (∃ x, i = .addI x) ∨ (∃ x, i = .ldF x) ∨ (∃ x, i = .ldMemVx x) ∨
      ∃ x, i = .ldVxMem x) ∧
    (t.dt = s.dt ∨ ∃ x, i = .ldDtVx x) ∧
    (t.st = s.st ∨ ∃ x, i = .ldStVx x) ∧
    ((t.kwWaiting = s.kwWaiting ∧ t.kwReg = s.kwReg ∧ t.kwKey = s.kwKey) ∨ ∃ x, i = .ldVxK x)

/-- No instruction writes the scheduler markers, the strobes, the ports, the time, the parameters or the model's own
fields for what the host has in store (spec/10_state.md R29, R34; log entries 2, 3, 4). -/
def Obligations.InstructionsLeaveTheHostSideAlone : Prop :=
  ∀ (i : Instr) (s t : State), exec i s = .next t →
    t.cpuMarker = s.cpuMarker ∧ t.dispMarker = s.dispMarker ∧ t.render = s.render ∧ t.buzz = s.buzz ∧
    t.ports = s.ports ∧ t.timeNs = s.timeNs ∧ t.params = s.params ∧ t.agenda = s.agenda ∧ t.inputs = s.inputs ∧
    t.draws = s.draws ∧ t.freeTicks = s.freeTicks

/-- The keys are read by `SKP`, `SKNP` and `LD Vx, K` "and by no one else" (R186), the random byte by `RND` alone
(R235): an instruction that does not read a port does the same whatever the port carries. -/
def Obligations.PortsAreReadByTheirInstructionsAlone : Prop :=
  ∀ (i : Instr) (s t : State) (p : Ports), exec i s = .next t →
    (p.keys = s.ports.keys ∨ ((∀ x, i ≠ .skp x) ∧ (∀ x, i ≠ .sknp x) ∧ ∀ x, i ≠ .ldVxK x)) →
    (p.rnd = s.ports.rnd ∨ ∀ x nn, i ≠ .rnd x nn) →
    exec i { s with ports := p } = .next { t with ports := p }

/-- `ST` "cannot be read by any instruction" (R25): an instruction does the same whatever `ST` holds. -/
def Obligations.NoInstructionReadsTheSoundTimer : Prop :=
  ∀ (i : Instr) (s t : State) (b : Byte), exec i s = .next t →
    exec i { s with st := b } = .next { t with st := if ∃ x, i = .ldStVx x then t.st else b }

/-! ## The CPU tick (spec/30_encoding.md R90) -/

/-- A step that is a CPU tick with the PC in memory runs the instruction its two bytes decode to (R90), the byte at PC
being bits 15 to 8 of the word (R64), on the state with the event taken, the strobes low and the ports sampled (the
model's form: log entries 2, 3, 9), which has the registers, memory, PC and status of `s`. -/
def Obligations.StepRunsTheDecodedInstruction : Prop :=
  ∀ (s : State) (i : Instr), s.nextAction = .cpuTick → s.status = .running → s.pc.toNat ≤ 0x0FFE →
    decode (s.readByte s.pc.toNat ++ s.readByte (s.pc.toNat + 1)) = i →
    step s = exec i s.enterTick ∧
    s.enterTick = { s with
      agenda := s.takeEvent.agenda, timeNs := s.takeEvent.timeNs, cpuMarker := s.takeEvent.cpuMarker,
      dispMarker := s.takeEvent.dispMarker, freeTicks := s.takeEvent.freeTicks, render := false, buzz := false,
      ports := s.enterTick.ports, inputs := s.enterTick.inputs, draws := s.enterTick.draws }

/-- A fetch with a byte outside memory faults; "`fault_addr` for a fetch fault is 0x1000 when `pc0` is 0x0FFF ... and
`pc0` otherwise" (R90). -/
def Obligations.FetchOutsideMemoryFaults : Prop :=
  ∀ s : State, s.nextAction = .cpuTick → s.status = .running → 0x0FFE < s.pc.toNat →
    step s = .next (Faulted s.enterTick .fetchRangeFault (if s.pc = 0x0FFF#16 then 0x1000#17 else s.pc.setWidth 17))

/-- A tick samples the ports once: the sample it ran on is the next one in store, which is then gone (the model's
choice: log entry 3). A tick that is an event of its own is that tick and uses the event up; with no event in store the
`n`-th step from there is the `n`-th tick of the free schedule, of either kind, for every `n` (R240; the model's form:
log entry 2). Neither moves a marker or the time (the model's choice: log entry 20). -/
def Obligations.TickSamplesThePortsOnce : Prop :=
  (∀ (s t : State) (p : Ports) (rest : List Ports), s.inputs = p :: rest →
    (s.nextAction = .cpuTick ∨ s.nextAction = .displayTick) → step s = .next t → t.ports = p ∧ t.inputs = rest) ∧
  (∀ (s : State) (e : Event) (a : Action) (rest : List Event), s.agenda = e :: rest →
    (e = .cpuTick ∧ a = .cpuTick ∨ e = .displayTick ∧ a = .displayTick) →
    s.nextAction = a ∧ ∃ t, step s = .next t ∧ t.agenda = rest ∧ t.freeTicks = s.freeTicks ∧ t.timeNs = s.timeNs ∧
      t.cpuMarker = s.cpuMarker ∧ t.dispMarker = s.dispMarker) ∧
  ∀ (n : Nat) (s : State), s.agenda = [] →
    ∃ t, core.run n s = .next t ∧ t.agenda = [] ∧ t.freeTicks = s.freeTicks + n ∧ t.timeNs = s.timeNs ∧
      t.cpuMarker = s.cpuMarker ∧ t.dispMarker = s.dispMarker ∧
      t.nextAction = if Config.freeDisplayTick (s.freeTicks + n) = true then .displayTick else .cpuTick

/-- A step has no meaning only for the host's events the spec refuses: a ROM too long (spec decision D15), a rate out
of bounds (D28), time going backwards (R264; log entry 8). -/
def Obligations.StepRefusesOnlyHostEvents : Prop :=
  ∀ (s : State) (r : Refusal), step s = .refused r →
    (r = .romTooLong ∧ ∃ rom rest, s.agenda = .reset rom :: rest ∧ 3584 < rom.length) ∨
    ((r = .rateOutOfBounds ∨ r = .timeBackwards) ∧
      ∃ now rest, (s.agenda = .pass now :: rest ∨ s.agenda = .start now :: rest) ∧
        (r = .rateOutOfBounds → rateOk s.params.cpuHz = false ∨ rateOk s.params.displayHz = false) ∧
        (r = .timeBackwards → now.toNat < s.timeNs.toNat))

/-- `FAULT` and `STOPPED` are absorbing (R223): short of a reset, a step changes only the host's side and raises no
strobe. That the time and the store of events move on, and that no marker does, is the model's (log entries 2, 3, 17).
-/
def Obligations.EndedRunIsAbsorbing : Prop :=
  ∀ s t : State, s.status ≠ .running → (∀ rom, s.nextAction ≠ .reset rom) → step s = .next t →
    t = { s with
      render := false, buzz := false, agenda := t.agenda, timeNs := t.timeNs, ports := t.ports, inputs := t.inputs,
      draws := t.draws, freeTicks := t.freeTicks }

/-! ## The display tick (spec/60_exceptions.md R226 to R232) -/

/-- A display tick of a running machine of which no raised strobe fails (R226, in the order of spec decision D17):
both timers count down and stay at 0, the frame is output, the buzzer strobe is raised exactly when the sound timer is
still nonzero, nothing else changes. -/
def Obligations.DisplayTickCountsAndRenders : Prop :=
  ∀ s : State, s.nextAction = .displayTick → s.status = .running → s.enterTick.ports.renderFail = false →
    (s.enterTick.ports.buzzFail = false ∨ s.st.toNat ≤ 1) →
    ∃ t, step s = .next t ∧ t.dt.toNat = s.dt.toNat - 1 ∧ t.st.toNat = s.st.toNat - 1 ∧
      t.fbPort = some s.fb ∧ (t.buzz = true ↔ 1 < s.st.toNat) ∧
      t = { s.enterTick with dt := t.dt, st := t.st, render := true, buzz := t.buzz }

/-- A failing collaborator stops the run with cause 6 and the PC recorded (spec decision D25); the countdown stays; a
failing display keeps the buzzer silent, and a failing sound is looked at only when the buzzer is raised. The frame
strobe stays raised (log entry 9). -/
def Obligations.CollaboratorFailureStopsTheRun : Prop :=
  ∀ s : State, s.nextAction = .displayTick → s.status = .running →
    (s.enterTick.ports.renderFail = true ∨ (1 < s.st.toNat ∧ s.enterTick.ports.buzzFail = true)) →
    ∃ t, step s = .next t ∧ t.status = .stopped ∧ t.faultCause.code = 6 ∧ t.faultPc = s.pc ∧ t.faultAddr = 0#17 ∧
      t.dt.toNat = s.dt.toNat - 1 ∧ t.st.toNat = s.st.toNat - 1 ∧ t.render = true ∧
      (t.buzz = true ↔ s.enterTick.ports.renderFail = false) ∧
      t = { s.enterTick with
        dt := t.dt, st := t.st, render := true, buzz := t.buzz, status := .stopped,
        faultCause := .collaboratorFailure, faultPc := s.pc, faultAddr := 0#17 }

/-- "delay/sound timer set to N, after N display-cadence ticks both read 0 and never go negative" (the property quoted
in R226): after `n` display ticks each timer is `n` lower, or 0. -/
def Obligations.TimersReachZeroAndStay : Prop :=
  ∀ (n : Nat) (s : State), s.status = .running → s.agenda = List.replicate n .displayTick → s.inputs.length = n →
    (∀ p ∈ s.inputs, p.renderFail = false ∧ p.buzzFail = false) →
    ∃ t, core.run n s = .next t ∧ t.dt.toNat = s.dt.toNat - n ∧ t.st.toNat = s.st.toNat - n ∧ t.status = .running

/-- The strobes belong to display ticks (R227, R228): no other step raises one (the model's form: log entry 9). -/
def Obligations.OnlyDisplayTicksRaiseStrobes : Prop :=
  ∀ s t : State, step s = .next t → s.nextAction ≠ .displayTick → t.render = false ∧ t.buzz = false

/-! ## The scheduler (spec/60_exceptions.md R229, R230) -/

/-- A pass at a time that is not past takes a CPU tick while one is due, then a display tick while one is due, each
moving its marker by one interval, and then ends (R229 with spec decision D16; one tick a step: log entry 10). A
`Start` sets both markers to its time (R229), also in the middle of a run (the model's choice: log entry 20). -/
def Obligations.PassRunsDueTicksInOrder : Prop :=
  (∀ (s : State) (now : Time) (rest : List Event), s.agenda = .pass now :: rest → s.status = .running →
    rateOk s.params.cpuHz = true → rateOk s.params.displayHz = true → s.timeNs.toNat ≤ now.toNat →
    (s.cpuMarker.toNat + 1000000000 / s.params.cpuHz ≤ now.toNat →
      s.nextAction = .cpuTick ∧ ∃ t, step s = .next t ∧ t.agenda = s.agenda ∧ t.timeNs = now ∧
        t.cpuMarker.toNat = s.cpuMarker.toNat + 1000000000 / s.params.cpuHz ∧ t.dispMarker = s.dispMarker) ∧
    (now.toNat < s.cpuMarker.toNat + 1000000000 / s.params.cpuHz →
      s.dispMarker.toNat + 1000000000 / s.params.displayHz ≤ now.toNat →
      s.nextAction = .displayTick ∧ ∃ t, step s = .next t ∧ t.agenda = s.agenda ∧ t.timeNs = now ∧
        t.dispMarker.toNat = s.dispMarker.toNat + 1000000000 / s.params.displayHz ∧ t.cpuMarker = s.cpuMarker) ∧
    (now.toNat < s.cpuMarker.toNat + 1000000000 / s.params.cpuHz →
      now.toNat < s.dispMarker.toNat + 1000000000 / s.params.displayHz →
      step s = .next { s with agenda := rest, timeNs := now, render := false, buzz := false })) ∧
  ∀ (s : State) (t0 : Time) (rest : List Event), s.agenda = .start t0 :: rest → s.status = .running →
    rateOk s.params.cpuHz = true → rateOk s.params.displayHz = true → s.timeNs.toNat ≤ t0.toNat →
    step s = .next { s with
      agenda := rest, timeNs := t0, cpuMarker := t0, dispMarker := t0, render := false, buzz := false }

/-- A run of a pass that ends with the machine `RUNNING` has moved each marker by exactly as many intervals as fit in
the time since the marker: "the number of CPU ticks since the start is `(now − t0) div cpu_interval`", an inference
R230 marks as its own. -/
def Obligations.PassRunsAsManyTicksAsFit : Prop :=
  ∀ (n : Nat) (s t : State) (now : Time), s.agenda = [.pass now] → s.cpuMarker.toNat ≤ now.toNat →
    s.dispMarker.toNat ≤ now.toNat → core.run n s = .next t → t.agenda = [] → t.status = .running →
    t.cpuMarker.toNat = s.cpuMarker.toNat + 1000000000 / s.params.cpuHz *
      ((now.toNat - s.cpuMarker.toNat) / (1000000000 / s.params.cpuHz)) ∧
    t.dispMarker.toNat = s.dispMarker.toNat + 1000000000 / s.params.displayHz *
      ((now.toNat - s.dispMarker.toNat) / (1000000000 / s.params.displayHz))

/-! ## Reset (spec/70_reset_and_hazards.md) -/

/-- A reset with a ROM that fits: every register, the screen, the stack and the record zero, the PC 0x0200 (spec
decision D8), the font below 0x050, the ROM from 0x200, all other memory zero, whatever the state before (R260, R261).
Both markers are the time, which stays as it is, like the parameters and the rest of the agenda (R33; that the run
begins at the reset is the model's: log entry 16). -/
def Obligations.ResetLoadsTheRom : Prop :=
  ∀ (s : State) (rom : List Byte) (rest : List Event), s.agenda = .reset rom :: rest → rom.length ≤ 3584 →
    ∃ t, step s = .next t ∧
      (∀ r : Reg, t.v[r] = 0x00#8) ∧ t.idx = 0x0000#16 ∧ t.sp.val = 0 ∧ (∀ k : Fin 16, t.stack[k] = 0x0000#16) ∧
      t.dt = 0x00#8 ∧ t.st = 0x00#8 ∧ (∀ (x : Fin 64) (y : Fin 32), t.fb[x][y] = false) ∧
      t.kwWaiting = false ∧ t.kwReg = 0 ∧ t.kwKey = 0x0#4 ∧ t.pc = 0x0200#16 ∧
      t.status = .running ∧ t.faultCause.code = 0 ∧ t.faultPc = 0x0000#16 ∧ t.faultAddr = 0#17 ∧
      t.cpuMarker = s.timeNs ∧ t.dispMarker = s.timeNs ∧ t.timeNs = s.timeNs ∧ t.params = s.params ∧ t.agenda = rest ∧
      (∀ (d : Fin 16) (r : Fin 5), t.readByte (5 * d.val + r.val) = s.params.font[d][r]) ∧
      (∀ k : Fin rom.length, t.readByte (0x200 + k.val) = rom[k]) ∧
      ∀ a : Nat, (0x050 ≤ a ∧ a < 0x200) ∨ 0x200 + rom.length ≤ a → t.readByte a = 0x00#8

/-- "a longer ROM is refused" (R262, spec decision D15). -/
def Obligations.LongerRomIsRefused : Prop :=
  ∀ (s : State) (rom : List Byte) (rest : List Event), s.agenda = .reset rom :: rest → 3584 < rom.length →
    step s = .refused .romTooLong

/-- The state right after reset (with the values of log entries 2, 3, 4, 7) is sound. -/
def Obligations.ResetStateIsSound : Prop := State.reset.Inv

/-! ## Invariants that every step keeps -/

/-- The PC never exceeds 0x10FE and no stack entry 0x1000 (an inference R35 of spec/10_state.md marks as its own). -/
def Obligations.StepKeepsPcInItsRange : Prop := ∀ s t : State, s.PcOk → step s = .next t → t.PcOk

/-- While the key wait is on, the PC points at its instruction, whose register is the target (inferences R27 and R183
mark as their own). -/
def Obligations.StepKeepsKeyWaitAtItsInstruction : Prop :=
  ∀ s t : State, s.KeyWaitOk → step s = .next t → t.KeyWaitOk

/-- Soundness as a whole: the canonical memory (the model's own form, log entry 6), the PC's range, the key wait, the
fault record, the markers and the parameters. -/
def Obligations.SoundStatesStaySound : Prop := ∀ s t : State, s.Inv → step s = .next t → t.Inv
end

