-- ==== Sys2Proof/Laws/Decode.lean ====
section
/-! SUPPORT. The fields of a word built by a format of spec/30_encoding.md R92, and bytes and words. -/

namespace Sys2Proof

@[simp] theorem regOf_nibbleOf (r : Reg) : regOf (nibbleOf r) = r := rfl

@[simp] theorem nibbleOf_regOf (n : Nibble) : nibbleOf (regOf n) = n := rfl

/-- The bits of an appended word that lie in its low part. -/
theorem extract_append_low {n m : Nat} (a : BitVec n) (b : BitVec m) (lo k : Nat) (h : lo + k ≤ m) :
    (a ++ b).extractLsb' lo k = b.extractLsb' lo k := by
  ext i hi
  simp only [BitVec.getElem_extractLsb', BitVec.getLsbD_append]
  rw [if_pos (by omega)]

/-- The bits of an appended word that lie in its high part. -/
theorem extract_append_high {n m : Nat} (a : BitVec n) (b : BitVec m) (lo k : Nat) (h : m ≤ lo) :
    (a ++ b).extractLsb' lo k = a.extractLsb' (lo - m) k := by
  ext i hi
  simp only [BitVec.getElem_extractLsb', BitVec.getLsbD_append]
  rw [if_neg (by omega), show lo + i - m = lo - m + i by omega]

/-- All the bits of a word. -/
theorem extract_all {n : Nat} (a : BitVec n) : a.extractLsb' 0 n = a := by
  ext i hi
  simp only [BitVec.getElem_extractLsb', Nat.zero_add, BitVec.getLsbD_eq_getElem hi]

@[simp] theorem opField_formatNNN (op : Nibble) (nnn : Addr) : opField (formatNNN op nnn) = op := by
  change BitVec.extractLsb' (n := 4 + 12) 12 4 (op ++ nnn) = op
  rw [extract_append_high _ _ _ _ (by omega), extract_all]

@[simp] theorem nnnField_formatNNN (op : Nibble) (nnn : Addr) : nnnField (formatNNN op nnn) = nnn := by
  change BitVec.extractLsb' (n := 4 + 12) 0 12 (op ++ nnn) = nnn
  rw [extract_append_low _ _ _ _ (by omega), extract_all]

@[simp] theorem opField_formatXNN (op : Nibble) (x : Reg) (nn : Byte) : opField (formatXNN op x nn) = op := by
  change BitVec.extractLsb' (n := 4 + 4 + 8) 12 4 (op ++ nibbleOf x ++ nn) = op
  rw [extract_append_high _ _ _ _ (by omega), extract_append_high _ _ _ _ (by omega), extract_all]

@[simp] theorem xField_formatXNN (op : Nibble) (x : Reg) (nn : Byte) : xField (formatXNN op x nn) = x := by
  change regOf (BitVec.extractLsb' (n := 4 + 4 + 8) 8 4 (op ++ nibbleOf x ++ nn)) = x
  rw [extract_append_high _ _ _ _ (by omega), extract_append_low _ _ _ _ (by omega), extract_all, regOf_nibbleOf]

@[simp] theorem nnField_formatXNN (op : Nibble) (x : Reg) (nn : Byte) : nnField (formatXNN op x nn) = nn := by
  change BitVec.extractLsb' (n := 4 + 4 + 8) 0 8 (op ++ nibbleOf x ++ nn) = nn
  rw [extract_append_low _ _ _ _ (by omega), extract_all]

@[simp] theorem opField_formatXYN (op : Nibble) (x y : Reg) (n : Nibble) : opField (formatXYN op x y n) = op := by
  change BitVec.extractLsb' (n := 4 + 4 + 4 + 4) 12 4 (op ++ nibbleOf x ++ nibbleOf y ++ n) = op
  rw [extract_append_high _ _ _ _ (by omega), extract_append_high _ _ _ _ (by omega),
    extract_append_high _ _ _ _ (by omega), extract_all]

@[simp] theorem xField_formatXYN (op : Nibble) (x y : Reg) (n : Nibble) : xField (formatXYN op x y n) = x := by
  change regOf (BitVec.extractLsb' (n := 4 + 4 + 4 + 4) 8 4 (op ++ nibbleOf x ++ nibbleOf y ++ n)) = x
  rw [extract_append_high _ _ _ _ (by omega), extract_append_high _ _ _ _ (by omega),
    extract_append_low _ _ _ _ (by omega), extract_all, regOf_nibbleOf]

@[simp] theorem yField_formatXYN (op : Nibble) (x y : Reg) (n : Nibble) : yField (formatXYN op x y n) = y := by
  change regOf (BitVec.extractLsb' (n := 4 + 4 + 4 + 4) 4 4 (op ++ nibbleOf x ++ nibbleOf y ++ n)) = y
  rw [extract_append_high _ _ _ _ (by omega), extract_append_low _ _ _ _ (by omega), extract_all, regOf_nibbleOf]

@[simp] theorem nField_formatXYN (op : Nibble) (x y : Reg) (n : Nibble) : nField (formatXYN op x y n) = n := by
  change BitVec.extractLsb' (n := 4 + 4 + 4 + 4) 0 4 (op ++ nibbleOf x ++ nibbleOf y ++ n) = n
  rw [extract_append_low _ _ _ _ (by omega), extract_all]

/-- Two adjacent pieces of a word, appended, are one piece. -/
theorem append_extract {k : Nat} (w : BitVec k) (lo n m : Nat) :
    w.extractLsb' (lo + m) n ++ w.extractLsb' lo m = w.extractLsb' lo (n + m) := by
  apply BitVec.eq_of_getLsbD_eq
  intro i hi
  simp only [BitVec.getLsbD_append, BitVec.getLsbD_extractLsb']
  split
  · simp_all
  · rw [show lo + m + (i - m) = lo + i by omega]
    simp only [show i - m < n by omega, hi, decide_true, Bool.true_and]

/-- A word is its op nibble and its `NNN` field. -/
theorem formatNNN_fields (w : Word) : formatNNN (opField w) (nnnField w) = w :=
  (append_extract w 0 4 12).trans (extract_all w)

/-- A word is its op nibble, its `X` field and its `NN` field. -/
theorem formatXNN_fields (w : Word) : formatXNN (opField w) (xField w) (nnField w) = w := by
  change (w.extractLsb' (8 + 4) 4 ++ w.extractLsb' 8 4) ++ w.extractLsb' 0 8 = w
  rw [append_extract w 8 4 4]
  exact (append_extract w 0 8 8).trans (extract_all w)

/-- A word is its op nibble and its `X`, `Y` and `N` fields. -/
theorem formatXYN_fields (w : Word) : formatXYN (opField w) (xField w) (yField w) (nField w) = w := by
  change ((w.extractLsb' (8 + 4) 4 ++ w.extractLsb' 8 4) ++ w.extractLsb' 4 4) ++ w.extractLsb' 0 4 = w
  rw [append_extract w 8 4 4]
  have h := append_extract w 4 8 4
  rw [show (w.extractLsb' 8 (4 + 4) ++ w.extractLsb' 4 4 : BitVec (4 + 4 + 4)) = w.extractLsb' 4 12 from h]
  exact (append_extract w 0 12 4).trans (extract_all w)

/-- The word of a word's own two bytes. -/
@[simp] theorem wordOf_bytes (w : Word) : wordOf (highByte w) (lowByte w) = w :=
  (append_extract w 0 8 8).trans (extract_all w)

end Sys2Proof
end

