-- ==== Sys2Proof/Laws/Memory.lean ====
section
/-! SUPPORT. The laws of memory: a read after a write, and that every memory operation keeps the canonical form. -/

namespace Sys2Proof.Machine

variable (font : Font)

theorem Memory.lookup_put (m : Memory) (a a' : Nat) (b : Byte) :
    Memory.lookup (Memory.put m a b) a' = if a' = a then some b else Memory.lookup m a' := by
  induction m with
  | nil => simp only [Memory.put, Memory.lookup, eq_comm]
  | cons cell rest ih =>
    obtain ⟨k, c⟩ := cell
    simp only [Memory.put]
    split <;> [skip; split] <;> simp only [Memory.lookup, ih] <;> grind

theorem Memory.lookup_drop (m : Memory) (a a' : Nat) :
    Memory.lookup (Memory.drop m a) a' = if a' = a then none else Memory.lookup m a' := by
  induction m with
  | nil => simp [Memory.drop, Memory.lookup]
  | cons cell rest ih =>
    obtain ⟨k, c⟩ := cell
    simp only [Memory.drop]
    split <;> simp only [Memory.lookup, ih] <;> grind

/-- A read after a write: the byte written at its own address, what was there before at every other. -/
theorem Memory.read_write (m : Memory) (a a' : Nat) (b : Byte) :
    Memory.read font (Memory.write font m a b) a' = if a' = a then b else Memory.read font m a' := by
  unfold Memory.read Memory.write
  split <;> simp only [Memory.lookup_drop, Memory.lookup_put] <;> split <;> simp_all

/-- A read after a block of writes: the byte of the block that falls on the address, else what was there before. -/
theorem Memory.read_writeBytes (m : Memory) (a a' : Nat) (bs : List Byte) :
    Memory.read font (Memory.writeBytes font m a bs) a' =
      if h : a ≤ a' ∧ a' < a + bs.length then bs[a' - a]'(by omega) else Memory.read font m a' := by
  induction bs generalizing m a with
  | nil =>
    have h : ¬ (a ≤ a' ∧ a' < a + ([] : List Byte).length) := by simp
    simp only [Memory.writeBytes, dif_neg h]
  | cons b bs ih =>
    simp only [Memory.writeBytes, ih, Memory.read_write, List.length_cons]
    by_cases h1 : a' = a
    · subst h1; simp
    · by_cases h2 : a + 1 ≤ a' ∧ a' < a + 1 + bs.length
      · have h3 : a ≤ a' ∧ a' < a + (bs.length + 1) := by omega
        have h4 : a' - a = (a' - (a + 1)) + 1 := by omega
        simp only [h2, h3, and_self, ↓reduceDIte, h4, List.getElem_cons_succ]
      · have h3 : ¬ (a ≤ a' ∧ a' < a + (bs.length + 1)) := by omega
        rw [dif_neg h2, dif_neg h3, if_neg h1]

/-! ## The canonical form -/

theorem Memory.wfFrom_mono {m : Memory} {lo lo' : Nat} (h : Memory.wfFrom font lo m = true) (hle : lo' ≤ lo) :
    Memory.wfFrom font lo' m = true := by
  cases m with
  | nil => rfl
  | cons cell rest =>
    simp only [Memory.wfFrom, Bool.and_eq_true, decide_eq_true_eq] at h ⊢
    exact ⟨⟨⟨by omega, h.1.1.2⟩, h.1.2⟩, h.2⟩

theorem Memory.wfFrom_drop {m : Memory} {lo : Nat} (a : Nat) (h : Memory.wfFrom font lo m = true) :
    Memory.wfFrom font lo (Memory.drop m a) = true := by
  induction m generalizing lo with
  | nil => exact h
  | cons cell rest ih =>
    simp only [Memory.wfFrom, Bool.and_eq_true, decide_eq_true_eq] at h
    simp only [Memory.drop]
    split
    · exact Memory.wfFrom_mono font (ih h.2) (by omega)
    · simp only [Memory.wfFrom, Bool.and_eq_true, decide_eq_true_eq]
      exact ⟨h.1, ih h.2⟩

theorem Memory.wfFrom_put {m : Memory} {lo a : Nat} {b : Byte} (h : Memory.wfFrom font lo m = true) (hlo : lo ≤ a)
    (ha : a ≤ 0xFFF) (hb : b ≠ Memory.background font a) : Memory.wfFrom font lo (Memory.put m a b) = true := by
  induction m generalizing lo with
  | nil => simp [Memory.put, Memory.wfFrom, hlo, ha, hb]
  | cons cell rest ih =>
    obtain ⟨k, c⟩ := cell
    simp only [Memory.wfFrom, Bool.and_eq_true, decide_eq_true_eq] at h
    simp only [Memory.put]
    split <;> [skip; split]
    · simp only [Memory.wfFrom, Bool.and_eq_true, decide_eq_true_eq, bne_iff_ne]
      exact ⟨⟨⟨hlo, ha⟩, hb⟩, ⟨⟨by omega, h.1.1.2⟩, by simpa using h.1.2⟩, h.2⟩
    · rename_i hk
      subst hk
      simp only [Memory.wfFrom, Bool.and_eq_true, decide_eq_true_eq, bne_iff_ne]
      exact ⟨⟨⟨hlo, ha⟩, hb⟩, h.2⟩
    · simp only [Memory.wfFrom, Bool.and_eq_true, decide_eq_true_eq]
      exact ⟨h.1, ih h.2 (by omega)⟩

/-- A write inside memory keeps the canonical form. -/
theorem Memory.wf_write {m : Memory} {a : Nat} {b : Byte} (h : Memory.wf font m = true) (ha : a ≤ 0xFFF) :
    Memory.wf font (Memory.write font m a b) = true := by
  unfold Memory.write
  split
  · exact Memory.wfFrom_drop font a h
  · exact Memory.wfFrom_put font h (Nat.zero_le a) ha (by assumption)

/-- A block of writes inside memory keeps the canonical form. -/
theorem Memory.wf_writeBytes {m : Memory} {a : Nat} {bs : List Byte} (h : Memory.wf font m = true)
    (ha : a + bs.length ≤ 0x1000) : Memory.wf font (Memory.writeBytes font m a bs) = true := by
  induction bs generalizing m a with
  | nil => exact h
  | cons b bs ih =>
    simp only [List.length_cons] at ha
    exact ih (Memory.wf_write font h (by omega)) (by omega)

/-- The memory after reset, before the ROM, is in the canonical form. -/
theorem Memory.wf_nil : Memory.wf font [] = true := rfl

/-- The memory of the reset state is in the canonical form. -/
theorem Memory.wf_reset : Memory.wf State.reset.params.font State.reset.mem = true := rfl

/-! ## Memory as the state holds it -/

theorem State.readByte_storeBytes (s : State) (a a' : Nat) (bs : List Byte) :
    (s.storeBytes a bs).readByte a' =
      if h : a ≤ a' ∧ a' < a + bs.length then bs[a' - a]'(by omega) else s.readByte a' :=
  Memory.read_writeBytes _ _ _ _ _

@[simp] theorem State.length_readBytes (s : State) (a n : Nat) : (s.readBytes a n).length = n := by
  simp [State.readBytes]

@[simp] theorem State.getElem_readBytes (s : State) (a n k : Nat) (h : k < (s.readBytes a n).length) :
    (s.readBytes a n)[k] = s.readByte (a + k) := by
  simp [State.readBytes]

end Sys2Proof.Machine
end

