-- ==== Sys2Proof/Laws/State.lean ====
section
/-! SUPPORT. One lemma for each field of each update of the state: what the field holds after it. -/

namespace Sys2Proof.Machine

variable (s : State)

/-! ### `State.setV` -/

@[simp] theorem State.setV_v (r : Reg) (b : Byte) : (s.setV r b).v = s.v.set r b := rfl
@[simp] theorem State.setV_idx (r : Reg) (b : Byte) : (s.setV r b).idx = s.idx := rfl
@[simp] theorem State.setV_pc (r : Reg) (b : Byte) : (s.setV r b).pc = s.pc := rfl
@[simp] theorem State.setV_stack (r : Reg) (b : Byte) : (s.setV r b).stack = s.stack := rfl
@[simp] theorem State.setV_sp (r : Reg) (b : Byte) : (s.setV r b).sp = s.sp := rfl
@[simp] theorem State.setV_dt (r : Reg) (b : Byte) : (s.setV r b).dt = s.dt := rfl
@[simp] theorem State.setV_st (r : Reg) (b : Byte) : (s.setV r b).st = s.st := rfl
@[simp] theorem State.setV_fb (r : Reg) (b : Byte) : (s.setV r b).fb = s.fb := rfl
@[simp] theorem State.setV_kwWaiting (r : Reg) (b : Byte) : (s.setV r b).kwWaiting = s.kwWaiting := rfl
@[simp] theorem State.setV_kwReg (r : Reg) (b : Byte) : (s.setV r b).kwReg = s.kwReg := rfl
@[simp] theorem State.setV_kwKey (r : Reg) (b : Byte) : (s.setV r b).kwKey = s.kwKey := rfl
@[simp] theorem State.setV_mem (r : Reg) (b : Byte) : (s.setV r b).mem = s.mem := rfl
@[simp] theorem State.setV_status (r : Reg) (b : Byte) : (s.setV r b).status = s.status := rfl
@[simp] theorem State.setV_faultCause (r : Reg) (b : Byte) : (s.setV r b).faultCause = s.faultCause := rfl
@[simp] theorem State.setV_faultPc (r : Reg) (b : Byte) : (s.setV r b).faultPc = s.faultPc := rfl
@[simp] theorem State.setV_faultAddr (r : Reg) (b : Byte) : (s.setV r b).faultAddr = s.faultAddr := rfl
@[simp] theorem State.setV_cpuMarker (r : Reg) (b : Byte) : (s.setV r b).cpuMarker = s.cpuMarker := rfl
@[simp] theorem State.setV_dispMarker (r : Reg) (b : Byte) : (s.setV r b).dispMarker = s.dispMarker := rfl
@[simp] theorem State.setV_render (r : Reg) (b : Byte) : (s.setV r b).render = s.render := rfl
@[simp] theorem State.setV_buzz (r : Reg) (b : Byte) : (s.setV r b).buzz = s.buzz := rfl
@[simp] theorem State.setV_ports (r : Reg) (b : Byte) : (s.setV r b).ports = s.ports := rfl
@[simp] theorem State.setV_timeNs (r : Reg) (b : Byte) : (s.setV r b).timeNs = s.timeNs := rfl
@[simp] theorem State.setV_params (r : Reg) (b : Byte) : (s.setV r b).params = s.params := rfl
@[simp] theorem State.setV_agenda (r : Reg) (b : Byte) : (s.setV r b).agenda = s.agenda := rfl
@[simp] theorem State.setV_inputs (r : Reg) (b : Byte) : (s.setV r b).inputs = s.inputs := rfl
@[simp] theorem State.setV_draws (r : Reg) (b : Byte) : (s.setV r b).draws = s.draws := rfl
@[simp] theorem State.setV_freeTicks (r : Reg) (b : Byte) : (s.setV r b).freeTicks = s.freeTicks := rfl

/-! ### `State.setIdx` -/

@[simp] theorem State.setIdx_v (w : Word) : (s.setIdx w).v = s.v := rfl
@[simp] theorem State.setIdx_idx (w : Word) : (s.setIdx w).idx = w := rfl
@[simp] theorem State.setIdx_pc (w : Word) : (s.setIdx w).pc = s.pc := rfl
@[simp] theorem State.setIdx_stack (w : Word) : (s.setIdx w).stack = s.stack := rfl
@[simp] theorem State.setIdx_sp (w : Word) : (s.setIdx w).sp = s.sp := rfl
@[simp] theorem State.setIdx_dt (w : Word) : (s.setIdx w).dt = s.dt := rfl
@[simp] theorem State.setIdx_st (w : Word) : (s.setIdx w).st = s.st := rfl
@[simp] theorem State.setIdx_fb (w : Word) : (s.setIdx w).fb = s.fb := rfl
@[simp] theorem State.setIdx_kwWaiting (w : Word) : (s.setIdx w).kwWaiting = s.kwWaiting := rfl
@[simp] theorem State.setIdx_kwReg (w : Word) : (s.setIdx w).kwReg = s.kwReg := rfl
@[simp] theorem State.setIdx_kwKey (w : Word) : (s.setIdx w).kwKey = s.kwKey := rfl
@[simp] theorem State.setIdx_mem (w : Word) : (s.setIdx w).mem = s.mem := rfl
@[simp] theorem State.setIdx_status (w : Word) : (s.setIdx w).status = s.status := rfl
@[simp] theorem State.setIdx_faultCause (w : Word) : (s.setIdx w).faultCause = s.faultCause := rfl
@[simp] theorem State.setIdx_faultPc (w : Word) : (s.setIdx w).faultPc = s.faultPc := rfl
@[simp] theorem State.setIdx_faultAddr (w : Word) : (s.setIdx w).faultAddr = s.faultAddr := rfl
@[simp] theorem State.setIdx_cpuMarker (w : Word) : (s.setIdx w).cpuMarker = s.cpuMarker := rfl
@[simp] theorem State.setIdx_dispMarker (w : Word) : (s.setIdx w).dispMarker = s.dispMarker := rfl
@[simp] theorem State.setIdx_render (w : Word) : (s.setIdx w).render = s.render := rfl
@[simp] theorem State.setIdx_buzz (w : Word) : (s.setIdx w).buzz = s.buzz := rfl
@[simp] theorem State.setIdx_ports (w : Word) : (s.setIdx w).ports = s.ports := rfl
@[simp] theorem State.setIdx_timeNs (w : Word) : (s.setIdx w).timeNs = s.timeNs := rfl
@[simp] theorem State.setIdx_params (w : Word) : (s.setIdx w).params = s.params := rfl
@[simp] theorem State.setIdx_agenda (w : Word) : (s.setIdx w).agenda = s.agenda := rfl
@[simp] theorem State.setIdx_inputs (w : Word) : (s.setIdx w).inputs = s.inputs := rfl
@[simp] theorem State.setIdx_draws (w : Word) : (s.setIdx w).draws = s.draws := rfl
@[simp] theorem State.setIdx_freeTicks (w : Word) : (s.setIdx w).freeTicks = s.freeTicks := rfl

/-! ### `State.setPc` -/

@[simp] theorem State.setPc_v (w : Word) : (s.setPc w).v = s.v := rfl
@[simp] theorem State.setPc_idx (w : Word) : (s.setPc w).idx = s.idx := rfl
@[simp] theorem State.setPc_pc (w : Word) : (s.setPc w).pc = w := rfl
@[simp] theorem State.setPc_stack (w : Word) : (s.setPc w).stack = s.stack := rfl
@[simp] theorem State.setPc_sp (w : Word) : (s.setPc w).sp = s.sp := rfl
@[simp] theorem State.setPc_dt (w : Word) : (s.setPc w).dt = s.dt := rfl
@[simp] theorem State.setPc_st (w : Word) : (s.setPc w).st = s.st := rfl
@[simp] theorem State.setPc_fb (w : Word) : (s.setPc w).fb = s.fb := rfl
@[simp] theorem State.setPc_kwWaiting (w : Word) : (s.setPc w).kwWaiting = s.kwWaiting := rfl
@[simp] theorem State.setPc_kwReg (w : Word) : (s.setPc w).kwReg = s.kwReg := rfl
@[simp] theorem State.setPc_kwKey (w : Word) : (s.setPc w).kwKey = s.kwKey := rfl
@[simp] theorem State.setPc_mem (w : Word) : (s.setPc w).mem = s.mem := rfl
@[simp] theorem State.setPc_status (w : Word) : (s.setPc w).status = s.status := rfl
@[simp] theorem State.setPc_faultCause (w : Word) : (s.setPc w).faultCause = s.faultCause := rfl
@[simp] theorem State.setPc_faultPc (w : Word) : (s.setPc w).faultPc = s.faultPc := rfl
@[simp] theorem State.setPc_faultAddr (w : Word) : (s.setPc w).faultAddr = s.faultAddr := rfl
@[simp] theorem State.setPc_cpuMarker (w : Word) : (s.setPc w).cpuMarker = s.cpuMarker := rfl
@[simp] theorem State.setPc_dispMarker (w : Word) : (s.setPc w).dispMarker = s.dispMarker := rfl
@[simp] theorem State.setPc_render (w : Word) : (s.setPc w).render = s.render := rfl
@[simp] theorem State.setPc_buzz (w : Word) : (s.setPc w).buzz = s.buzz := rfl
@[simp] theorem State.setPc_ports (w : Word) : (s.setPc w).ports = s.ports := rfl
@[simp] theorem State.setPc_timeNs (w : Word) : (s.setPc w).timeNs = s.timeNs := rfl
@[simp] theorem State.setPc_params (w : Word) : (s.setPc w).params = s.params := rfl
@[simp] theorem State.setPc_agenda (w : Word) : (s.setPc w).agenda = s.agenda := rfl
@[simp] theorem State.setPc_inputs (w : Word) : (s.setPc w).inputs = s.inputs := rfl
@[simp] theorem State.setPc_draws (w : Word) : (s.setPc w).draws = s.draws := rfl
@[simp] theorem State.setPc_freeTicks (w : Word) : (s.setPc w).freeTicks = s.freeTicks := rfl

/-! ### `State.advance` -/

@[simp] theorem State.advance_v : s.advance.v = s.v := rfl
@[simp] theorem State.advance_idx : s.advance.idx = s.idx := rfl
@[simp] theorem State.advance_pc : s.advance.pc = s.pc + 2#16 := rfl
@[simp] theorem State.advance_stack : s.advance.stack = s.stack := rfl
@[simp] theorem State.advance_sp : s.advance.sp = s.sp := rfl
@[simp] theorem State.advance_dt : s.advance.dt = s.dt := rfl
@[simp] theorem State.advance_st : s.advance.st = s.st := rfl
@[simp] theorem State.advance_fb : s.advance.fb = s.fb := rfl
@[simp] theorem State.advance_kwWaiting : s.advance.kwWaiting = s.kwWaiting := rfl
@[simp] theorem State.advance_kwReg : s.advance.kwReg = s.kwReg := rfl
@[simp] theorem State.advance_kwKey : s.advance.kwKey = s.kwKey := rfl
@[simp] theorem State.advance_mem : s.advance.mem = s.mem := rfl
@[simp] theorem State.advance_status : s.advance.status = s.status := rfl
@[simp] theorem State.advance_faultCause : s.advance.faultCause = s.faultCause := rfl
@[simp] theorem State.advance_faultPc : s.advance.faultPc = s.faultPc := rfl
@[simp] theorem State.advance_faultAddr : s.advance.faultAddr = s.faultAddr := rfl
@[simp] theorem State.advance_cpuMarker : s.advance.cpuMarker = s.cpuMarker := rfl
@[simp] theorem State.advance_dispMarker : s.advance.dispMarker = s.dispMarker := rfl
@[simp] theorem State.advance_render : s.advance.render = s.render := rfl
@[simp] theorem State.advance_buzz : s.advance.buzz = s.buzz := rfl
@[simp] theorem State.advance_ports : s.advance.ports = s.ports := rfl
@[simp] theorem State.advance_timeNs : s.advance.timeNs = s.timeNs := rfl
@[simp] theorem State.advance_params : s.advance.params = s.params := rfl
@[simp] theorem State.advance_agenda : s.advance.agenda = s.agenda := rfl
@[simp] theorem State.advance_inputs : s.advance.inputs = s.inputs := rfl
@[simp] theorem State.advance_draws : s.advance.draws = s.draws := rfl
@[simp] theorem State.advance_freeTicks : s.advance.freeTicks = s.freeTicks := rfl

/-! ### `State.rewind` -/

@[simp] theorem State.rewind_v : s.rewind.v = s.v := rfl
@[simp] theorem State.rewind_idx : s.rewind.idx = s.idx := rfl
@[simp] theorem State.rewind_pc : s.rewind.pc = s.pc - 2#16 := rfl
@[simp] theorem State.rewind_stack : s.rewind.stack = s.stack := rfl
@[simp] theorem State.rewind_sp : s.rewind.sp = s.sp := rfl
@[simp] theorem State.rewind_dt : s.rewind.dt = s.dt := rfl
@[simp] theorem State.rewind_st : s.rewind.st = s.st := rfl
@[simp] theorem State.rewind_fb : s.rewind.fb = s.fb := rfl
@[simp] theorem State.rewind_kwWaiting : s.rewind.kwWaiting = s.kwWaiting := rfl
@[simp] theorem State.rewind_kwReg : s.rewind.kwReg = s.kwReg := rfl
@[simp] theorem State.rewind_kwKey : s.rewind.kwKey = s.kwKey := rfl
@[simp] theorem State.rewind_mem : s.rewind.mem = s.mem := rfl
@[simp] theorem State.rewind_status : s.rewind.status = s.status := rfl
@[simp] theorem State.rewind_faultCause : s.rewind.faultCause = s.faultCause := rfl
@[simp] theorem State.rewind_faultPc : s.rewind.faultPc = s.faultPc := rfl
@[simp] theorem State.rewind_faultAddr : s.rewind.faultAddr = s.faultAddr := rfl
@[simp] theorem State.rewind_cpuMarker : s.rewind.cpuMarker = s.cpuMarker := rfl
@[simp] theorem State.rewind_dispMarker : s.rewind.dispMarker = s.dispMarker := rfl
@[simp] theorem State.rewind_render : s.rewind.render = s.render := rfl
@[simp] theorem State.rewind_buzz : s.rewind.buzz = s.buzz := rfl
@[simp] theorem State.rewind_ports : s.rewind.ports = s.ports := rfl
@[simp] theorem State.rewind_timeNs : s.rewind.timeNs = s.timeNs := rfl
@[simp] theorem State.rewind_params : s.rewind.params = s.params := rfl
@[simp] theorem State.rewind_agenda : s.rewind.agenda = s.agenda := rfl
@[simp] theorem State.rewind_inputs : s.rewind.inputs = s.inputs := rfl
@[simp] theorem State.rewind_draws : s.rewind.draws = s.draws := rfl
@[simp] theorem State.rewind_freeTicks : s.rewind.freeTicks = s.freeTicks := rfl

/-! ### `State.setDt` -/

@[simp] theorem State.setDt_v (b : Byte) : (s.setDt b).v = s.v := rfl
@[simp] theorem State.setDt_idx (b : Byte) : (s.setDt b).idx = s.idx := rfl
@[simp] theorem State.setDt_pc (b : Byte) : (s.setDt b).pc = s.pc := rfl
@[simp] theorem State.setDt_stack (b : Byte) : (s.setDt b).stack = s.stack := rfl
@[simp] theorem State.setDt_sp (b : Byte) : (s.setDt b).sp = s.sp := rfl
@[simp] theorem State.setDt_dt (b : Byte) : (s.setDt b).dt = b := rfl
@[simp] theorem State.setDt_st (b : Byte) : (s.setDt b).st = s.st := rfl
@[simp] theorem State.setDt_fb (b : Byte) : (s.setDt b).fb = s.fb := rfl
@[simp] theorem State.setDt_kwWaiting (b : Byte) : (s.setDt b).kwWaiting = s.kwWaiting := rfl
@[simp] theorem State.setDt_kwReg (b : Byte) : (s.setDt b).kwReg = s.kwReg := rfl
@[simp] theorem State.setDt_kwKey (b : Byte) : (s.setDt b).kwKey = s.kwKey := rfl
@[simp] theorem State.setDt_mem (b : Byte) : (s.setDt b).mem = s.mem := rfl
@[simp] theorem State.setDt_status (b : Byte) : (s.setDt b).status = s.status := rfl
@[simp] theorem State.setDt_faultCause (b : Byte) : (s.setDt b).faultCause = s.faultCause := rfl
@[simp] theorem State.setDt_faultPc (b : Byte) : (s.setDt b).faultPc = s.faultPc := rfl
@[simp] theorem State.setDt_faultAddr (b : Byte) : (s.setDt b).faultAddr = s.faultAddr := rfl
@[simp] theorem State.setDt_cpuMarker (b : Byte) : (s.setDt b).cpuMarker = s.cpuMarker := rfl
@[simp] theorem State.setDt_dispMarker (b : Byte) : (s.setDt b).dispMarker = s.dispMarker := rfl
@[simp] theorem State.setDt_render (b : Byte) : (s.setDt b).render = s.render := rfl
@[simp] theorem State.setDt_buzz (b : Byte) : (s.setDt b).buzz = s.buzz := rfl
@[simp] theorem State.setDt_ports (b : Byte) : (s.setDt b).ports = s.ports := rfl
@[simp] theorem State.setDt_timeNs (b : Byte) : (s.setDt b).timeNs = s.timeNs := rfl
@[simp] theorem State.setDt_params (b : Byte) : (s.setDt b).params = s.params := rfl
@[simp] theorem State.setDt_agenda (b : Byte) : (s.setDt b).agenda = s.agenda := rfl
@[simp] theorem State.setDt_inputs (b : Byte) : (s.setDt b).inputs = s.inputs := rfl
@[simp] theorem State.setDt_draws (b : Byte) : (s.setDt b).draws = s.draws := rfl
@[simp] theorem State.setDt_freeTicks (b : Byte) : (s.setDt b).freeTicks = s.freeTicks := rfl

/-! ### `State.setSt` -/

@[simp] theorem State.setSt_v (b : Byte) : (s.setSt b).v = s.v := rfl
@[simp] theorem State.setSt_idx (b : Byte) : (s.setSt b).idx = s.idx := rfl
@[simp] theorem State.setSt_pc (b : Byte) : (s.setSt b).pc = s.pc := rfl
@[simp] theorem State.setSt_stack (b : Byte) : (s.setSt b).stack = s.stack := rfl
@[simp] theorem State.setSt_sp (b : Byte) : (s.setSt b).sp = s.sp := rfl
@[simp] theorem State.setSt_dt (b : Byte) : (s.setSt b).dt = s.dt := rfl
@[simp] theorem State.setSt_st (b : Byte) : (s.setSt b).st = b := rfl
@[simp] theorem State.setSt_fb (b : Byte) : (s.setSt b).fb = s.fb := rfl
@[simp] theorem State.setSt_kwWaiting (b : Byte) : (s.setSt b).kwWaiting = s.kwWaiting := rfl
@[simp] theorem State.setSt_kwReg (b : Byte) : (s.setSt b).kwReg = s.kwReg := rfl
@[simp] theorem State.setSt_kwKey (b : Byte) : (s.setSt b).kwKey = s.kwKey := rfl
@[simp] theorem State.setSt_mem (b : Byte) : (s.setSt b).mem = s.mem := rfl
@[simp] theorem State.setSt_status (b : Byte) : (s.setSt b).status = s.status := rfl
@[simp] theorem State.setSt_faultCause (b : Byte) : (s.setSt b).faultCause = s.faultCause := rfl
@[simp] theorem State.setSt_faultPc (b : Byte) : (s.setSt b).faultPc = s.faultPc := rfl
@[simp] theorem State.setSt_faultAddr (b : Byte) : (s.setSt b).faultAddr = s.faultAddr := rfl
@[simp] theorem State.setSt_cpuMarker (b : Byte) : (s.setSt b).cpuMarker = s.cpuMarker := rfl
@[simp] theorem State.setSt_dispMarker (b : Byte) : (s.setSt b).dispMarker = s.dispMarker := rfl
@[simp] theorem State.setSt_render (b : Byte) : (s.setSt b).render = s.render := rfl
@[simp] theorem State.setSt_buzz (b : Byte) : (s.setSt b).buzz = s.buzz := rfl
@[simp] theorem State.setSt_ports (b : Byte) : (s.setSt b).ports = s.ports := rfl
@[simp] theorem State.setSt_timeNs (b : Byte) : (s.setSt b).timeNs = s.timeNs := rfl
@[simp] theorem State.setSt_params (b : Byte) : (s.setSt b).params = s.params := rfl
@[simp] theorem State.setSt_agenda (b : Byte) : (s.setSt b).agenda = s.agenda := rfl
@[simp] theorem State.setSt_inputs (b : Byte) : (s.setSt b).inputs = s.inputs := rfl
@[simp] theorem State.setSt_draws (b : Byte) : (s.setSt b).draws = s.draws := rfl
@[simp] theorem State.setSt_freeTicks (b : Byte) : (s.setSt b).freeTicks = s.freeTicks := rfl

/-! ### `State.storeBytes` -/

@[simp] theorem State.storeBytes_v (a : Nat) (bs : List Byte) : (s.storeBytes a bs).v = s.v := rfl
@[simp] theorem State.storeBytes_idx (a : Nat) (bs : List Byte) : (s.storeBytes a bs).idx = s.idx := rfl
@[simp] theorem State.storeBytes_pc (a : Nat) (bs : List Byte) : (s.storeBytes a bs).pc = s.pc := rfl
@[simp] theorem State.storeBytes_stack (a : Nat) (bs : List Byte) : (s.storeBytes a bs).stack = s.stack := rfl
@[simp] theorem State.storeBytes_sp (a : Nat) (bs : List Byte) : (s.storeBytes a bs).sp = s.sp := rfl
@[simp] theorem State.storeBytes_dt (a : Nat) (bs : List Byte) : (s.storeBytes a bs).dt = s.dt := rfl
@[simp] theorem State.storeBytes_st (a : Nat) (bs : List Byte) : (s.storeBytes a bs).st = s.st := rfl
@[simp] theorem State.storeBytes_fb (a : Nat) (bs : List Byte) : (s.storeBytes a bs).fb = s.fb := rfl
@[simp] theorem State.storeBytes_kwWaiting (a : Nat) (bs : List Byte) : (s.storeBytes a bs).kwWaiting = s.kwWaiting := rfl
@[simp] theorem State.storeBytes_kwReg (a : Nat) (bs : List Byte) : (s.storeBytes a bs).kwReg = s.kwReg := rfl
@[simp] theorem State.storeBytes_kwKey (a : Nat) (bs : List Byte) : (s.storeBytes a bs).kwKey = s.kwKey := rfl
@[simp] theorem State.storeBytes_mem (a : Nat) (bs : List Byte) : (s.storeBytes a bs).mem = s.mem.writeBytes s.params.font a bs := rfl
@[simp] theorem State.storeBytes_status (a : Nat) (bs : List Byte) : (s.storeBytes a bs).status = s.status := rfl
@[simp] theorem State.storeBytes_faultCause (a : Nat) (bs : List Byte) : (s.storeBytes a bs).faultCause = s.faultCause := rfl
@[simp] theorem State.storeBytes_faultPc (a : Nat) (bs : List Byte) : (s.storeBytes a bs).faultPc = s.faultPc := rfl
@[simp] theorem State.storeBytes_faultAddr (a : Nat) (bs : List Byte) : (s.storeBytes a bs).faultAddr = s.faultAddr := rfl
@[simp] theorem State.storeBytes_cpuMarker (a : Nat) (bs : List Byte) : (s.storeBytes a bs).cpuMarker = s.cpuMarker := rfl
@[simp] theorem State.storeBytes_dispMarker (a : Nat) (bs : List Byte) : (s.storeBytes a bs).dispMarker = s.dispMarker := rfl
@[simp] theorem State.storeBytes_render (a : Nat) (bs : List Byte) : (s.storeBytes a bs).render = s.render := rfl
@[simp] theorem State.storeBytes_buzz (a : Nat) (bs : List Byte) : (s.storeBytes a bs).buzz = s.buzz := rfl
@[simp] theorem State.storeBytes_ports (a : Nat) (bs : List Byte) : (s.storeBytes a bs).ports = s.ports := rfl
@[simp] theorem State.storeBytes_timeNs (a : Nat) (bs : List Byte) : (s.storeBytes a bs).timeNs = s.timeNs := rfl
@[simp] theorem State.storeBytes_params (a : Nat) (bs : List Byte) : (s.storeBytes a bs).params = s.params := rfl
@[simp] theorem State.storeBytes_agenda (a : Nat) (bs : List Byte) : (s.storeBytes a bs).agenda = s.agenda := rfl
@[simp] theorem State.storeBytes_inputs (a : Nat) (bs : List Byte) : (s.storeBytes a bs).inputs = s.inputs := rfl
@[simp] theorem State.storeBytes_draws (a : Nat) (bs : List Byte) : (s.storeBytes a bs).draws = s.draws := rfl
@[simp] theorem State.storeBytes_freeTicks (a : Nat) (bs : List Byte) : (s.storeBytes a bs).freeTicks = s.freeTicks := rfl

/-! ### `State.loadRegs` -/

@[simp] theorem State.loadRegs_v (x : Reg) (a : Nat) : (s.loadRegs x a).v = s.loadedRegs x a := rfl
@[simp] theorem State.loadRegs_idx (x : Reg) (a : Nat) : (s.loadRegs x a).idx = s.idx := rfl
@[simp] theorem State.loadRegs_pc (x : Reg) (a : Nat) : (s.loadRegs x a).pc = s.pc := rfl
@[simp] theorem State.loadRegs_stack (x : Reg) (a : Nat) : (s.loadRegs x a).stack = s.stack := rfl
@[simp] theorem State.loadRegs_sp (x : Reg) (a : Nat) : (s.loadRegs x a).sp = s.sp := rfl
@[simp] theorem State.loadRegs_dt (x : Reg) (a : Nat) : (s.loadRegs x a).dt = s.dt := rfl
@[simp] theorem State.loadRegs_st (x : Reg) (a : Nat) : (s.loadRegs x a).st = s.st := rfl
@[simp] theorem State.loadRegs_fb (x : Reg) (a : Nat) : (s.loadRegs x a).fb = s.fb := rfl
@[simp] theorem State.loadRegs_kwWaiting (x : Reg) (a : Nat) : (s.loadRegs x a).kwWaiting = s.kwWaiting := rfl
@[simp] theorem State.loadRegs_kwReg (x : Reg) (a : Nat) : (s.loadRegs x a).kwReg = s.kwReg := rfl
@[simp] theorem State.loadRegs_kwKey (x : Reg) (a : Nat) : (s.loadRegs x a).kwKey = s.kwKey := rfl
@[simp] theorem State.loadRegs_mem (x : Reg) (a : Nat) : (s.loadRegs x a).mem = s.mem := rfl
@[simp] theorem State.loadRegs_status (x : Reg) (a : Nat) : (s.loadRegs x a).status = s.status := rfl
@[simp] theorem State.loadRegs_faultCause (x : Reg) (a : Nat) : (s.loadRegs x a).faultCause = s.faultCause := rfl
@[simp] theorem State.loadRegs_faultPc (x : Reg) (a : Nat) : (s.loadRegs x a).faultPc = s.faultPc := rfl
@[simp] theorem State.loadRegs_faultAddr (x : Reg) (a : Nat) : (s.loadRegs x a).faultAddr = s.faultAddr := rfl
@[simp] theorem State.loadRegs_cpuMarker (x : Reg) (a : Nat) : (s.loadRegs x a).cpuMarker = s.cpuMarker := rfl
@[simp] theorem State.loadRegs_dispMarker (x : Reg) (a : Nat) : (s.loadRegs x a).dispMarker = s.dispMarker := rfl
@[simp] theorem State.loadRegs_render (x : Reg) (a : Nat) : (s.loadRegs x a).render = s.render := rfl
@[simp] theorem State.loadRegs_buzz (x : Reg) (a : Nat) : (s.loadRegs x a).buzz = s.buzz := rfl
@[simp] theorem State.loadRegs_ports (x : Reg) (a : Nat) : (s.loadRegs x a).ports = s.ports := rfl
@[simp] theorem State.loadRegs_timeNs (x : Reg) (a : Nat) : (s.loadRegs x a).timeNs = s.timeNs := rfl
@[simp] theorem State.loadRegs_params (x : Reg) (a : Nat) : (s.loadRegs x a).params = s.params := rfl
@[simp] theorem State.loadRegs_agenda (x : Reg) (a : Nat) : (s.loadRegs x a).agenda = s.agenda := rfl
@[simp] theorem State.loadRegs_inputs (x : Reg) (a : Nat) : (s.loadRegs x a).inputs = s.inputs := rfl
@[simp] theorem State.loadRegs_draws (x : Reg) (a : Nat) : (s.loadRegs x a).draws = s.draws := rfl
@[simp] theorem State.loadRegs_freeTicks (x : Reg) (a : Nat) : (s.loadRegs x a).freeTicks = s.freeTicks := rfl

/-! ### `State.pushPc` -/

@[simp] theorem State.pushPc_v : s.pushPc.v = s.v := rfl
@[simp] theorem State.pushPc_idx : s.pushPc.idx = s.idx := rfl
@[simp] theorem State.pushPc_pc : s.pushPc.pc = s.pc := rfl
@[simp] theorem State.pushPc_stack : s.pushPc.stack = s.stack.set (stackSlot s.sp.val) s.pc := rfl
@[simp] theorem State.pushPc_sp : s.pushPc.sp = stackCount (s.sp.val + 1) := rfl
@[simp] theorem State.pushPc_dt : s.pushPc.dt = s.dt := rfl
@[simp] theorem State.pushPc_st : s.pushPc.st = s.st := rfl
@[simp] theorem State.pushPc_fb : s.pushPc.fb = s.fb := rfl
@[simp] theorem State.pushPc_kwWaiting : s.pushPc.kwWaiting = s.kwWaiting := rfl
@[simp] theorem State.pushPc_kwReg : s.pushPc.kwReg = s.kwReg := rfl
@[simp] theorem State.pushPc_kwKey : s.pushPc.kwKey = s.kwKey := rfl
@[simp] theorem State.pushPc_mem : s.pushPc.mem = s.mem := rfl
@[simp] theorem State.pushPc_status : s.pushPc.status = s.status := rfl
@[simp] theorem State.pushPc_faultCause : s.pushPc.faultCause = s.faultCause := rfl
@[simp] theorem State.pushPc_faultPc : s.pushPc.faultPc = s.faultPc := rfl
@[simp] theorem State.pushPc_faultAddr : s.pushPc.faultAddr = s.faultAddr := rfl
@[simp] theorem State.pushPc_cpuMarker : s.pushPc.cpuMarker = s.cpuMarker := rfl
@[simp] theorem State.pushPc_dispMarker : s.pushPc.dispMarker = s.dispMarker := rfl
@[simp] theorem State.pushPc_render : s.pushPc.render = s.render := rfl
@[simp] theorem State.pushPc_buzz : s.pushPc.buzz = s.buzz := rfl
@[simp] theorem State.pushPc_ports : s.pushPc.ports = s.ports := rfl
@[simp] theorem State.pushPc_timeNs : s.pushPc.timeNs = s.timeNs := rfl
@[simp] theorem State.pushPc_params : s.pushPc.params = s.params := rfl
@[simp] theorem State.pushPc_agenda : s.pushPc.agenda = s.agenda := rfl
@[simp] theorem State.pushPc_inputs : s.pushPc.inputs = s.inputs := rfl
@[simp] theorem State.pushPc_draws : s.pushPc.draws = s.draws := rfl
@[simp] theorem State.pushPc_freeTicks : s.pushPc.freeTicks = s.freeTicks := rfl

/-! ### `State.popPc` -/

@[simp] theorem State.popPc_v : s.popPc.v = s.v := rfl
@[simp] theorem State.popPc_idx : s.popPc.idx = s.idx := rfl
@[simp] theorem State.popPc_pc : s.popPc.pc = s.stack[stackSlot (s.sp.val - 1)] := rfl
@[simp] theorem State.popPc_stack : s.popPc.stack = s.stack := rfl
@[simp] theorem State.popPc_sp : s.popPc.sp = stackCount (s.sp.val - 1) := rfl
@[simp] theorem State.popPc_dt : s.popPc.dt = s.dt := rfl
@[simp] theorem State.popPc_st : s.popPc.st = s.st := rfl
@[simp] theorem State.popPc_fb : s.popPc.fb = s.fb := rfl
@[simp] theorem State.popPc_kwWaiting : s.popPc.kwWaiting = s.kwWaiting := rfl
@[simp] theorem State.popPc_kwReg : s.popPc.kwReg = s.kwReg := rfl
@[simp] theorem State.popPc_kwKey : s.popPc.kwKey = s.kwKey := rfl
@[simp] theorem State.popPc_mem : s.popPc.mem = s.mem := rfl
@[simp] theorem State.popPc_status : s.popPc.status = s.status := rfl
@[simp] theorem State.popPc_faultCause : s.popPc.faultCause = s.faultCause := rfl
@[simp] theorem State.popPc_faultPc : s.popPc.faultPc = s.faultPc := rfl
@[simp] theorem State.popPc_faultAddr : s.popPc.faultAddr = s.faultAddr := rfl
@[simp] theorem State.popPc_cpuMarker : s.popPc.cpuMarker = s.cpuMarker := rfl
@[simp] theorem State.popPc_dispMarker : s.popPc.dispMarker = s.dispMarker := rfl
@[simp] theorem State.popPc_render : s.popPc.render = s.render := rfl
@[simp] theorem State.popPc_buzz : s.popPc.buzz = s.buzz := rfl
@[simp] theorem State.popPc_ports : s.popPc.ports = s.ports := rfl
@[simp] theorem State.popPc_timeNs : s.popPc.timeNs = s.timeNs := rfl
@[simp] theorem State.popPc_params : s.popPc.params = s.params := rfl
@[simp] theorem State.popPc_agenda : s.popPc.agenda = s.agenda := rfl
@[simp] theorem State.popPc_inputs : s.popPc.inputs = s.inputs := rfl
@[simp] theorem State.popPc_draws : s.popPc.draws = s.draws := rfl
@[simp] theorem State.popPc_freeTicks : s.popPc.freeTicks = s.freeTicks := rfl

/-! ### `State.takeFault` -/

@[simp] theorem State.takeFault_v (c : Cause) (a : BitVec 17) : (s.takeFault c a).v = s.v := rfl
@[simp] theorem State.takeFault_idx (c : Cause) (a : BitVec 17) : (s.takeFault c a).idx = s.idx := rfl
@[simp] theorem State.takeFault_pc (c : Cause) (a : BitVec 17) : (s.takeFault c a).pc = s.pc := rfl
@[simp] theorem State.takeFault_stack (c : Cause) (a : BitVec 17) : (s.takeFault c a).stack = s.stack := rfl
@[simp] theorem State.takeFault_sp (c : Cause) (a : BitVec 17) : (s.takeFault c a).sp = s.sp := rfl
@[simp] theorem State.takeFault_dt (c : Cause) (a : BitVec 17) : (s.takeFault c a).dt = s.dt := rfl
@[simp] theorem State.takeFault_st (c : Cause) (a : BitVec 17) : (s.takeFault c a).st = s.st := rfl
@[simp] theorem State.takeFault_fb (c : Cause) (a : BitVec 17) : (s.takeFault c a).fb = s.fb := rfl
@[simp] theorem State.takeFault_kwWaiting (c : Cause) (a : BitVec 17) : (s.takeFault c a).kwWaiting = s.kwWaiting := rfl
@[simp] theorem State.takeFault_kwReg (c : Cause) (a : BitVec 17) : (s.takeFault c a).kwReg = s.kwReg := rfl
@[simp] theorem State.takeFault_kwKey (c : Cause) (a : BitVec 17) : (s.takeFault c a).kwKey = s.kwKey := rfl
@[simp] theorem State.takeFault_mem (c : Cause) (a : BitVec 17) : (s.takeFault c a).mem = s.mem := rfl
@[simp] theorem State.takeFault_status (c : Cause) (a : BitVec 17) : (s.takeFault c a).status = .fault := rfl
@[simp] theorem State.takeFault_faultCause (c : Cause) (a : BitVec 17) : (s.takeFault c a).faultCause = c := rfl
@[simp] theorem State.takeFault_faultPc (c : Cause) (a : BitVec 17) : (s.takeFault c a).faultPc = s.pc := rfl
@[simp] theorem State.takeFault_faultAddr (c : Cause) (a : BitVec 17) : (s.takeFault c a).faultAddr = a := rfl
@[simp] theorem State.takeFault_cpuMarker (c : Cause) (a : BitVec 17) : (s.takeFault c a).cpuMarker = s.cpuMarker := rfl
@[simp] theorem State.takeFault_dispMarker (c : Cause) (a : BitVec 17) : (s.takeFault c a).dispMarker = s.dispMarker := rfl
@[simp] theorem State.takeFault_render (c : Cause) (a : BitVec 17) : (s.takeFault c a).render = s.render := rfl
@[simp] theorem State.takeFault_buzz (c : Cause) (a : BitVec 17) : (s.takeFault c a).buzz = s.buzz := rfl
@[simp] theorem State.takeFault_ports (c : Cause) (a : BitVec 17) : (s.takeFault c a).ports = s.ports := rfl
@[simp] theorem State.takeFault_timeNs (c : Cause) (a : BitVec 17) : (s.takeFault c a).timeNs = s.timeNs := rfl
@[simp] theorem State.takeFault_params (c : Cause) (a : BitVec 17) : (s.takeFault c a).params = s.params := rfl
@[simp] theorem State.takeFault_agenda (c : Cause) (a : BitVec 17) : (s.takeFault c a).agenda = s.agenda := rfl
@[simp] theorem State.takeFault_inputs (c : Cause) (a : BitVec 17) : (s.takeFault c a).inputs = s.inputs := rfl
@[simp] theorem State.takeFault_draws (c : Cause) (a : BitVec 17) : (s.takeFault c a).draws = s.draws := rfl
@[simp] theorem State.takeFault_freeTicks (c : Cause) (a : BitVec 17) : (s.takeFault c a).freeTicks = s.freeTicks := rfl

/-! ### `State.stop` -/

@[simp] theorem State.stop_v : s.stop.v = s.v := rfl
@[simp] theorem State.stop_idx : s.stop.idx = s.idx := rfl
@[simp] theorem State.stop_pc : s.stop.pc = s.pc := rfl
@[simp] theorem State.stop_stack : s.stop.stack = s.stack := rfl
@[simp] theorem State.stop_sp : s.stop.sp = s.sp := rfl
@[simp] theorem State.stop_dt : s.stop.dt = s.dt := rfl
@[simp] theorem State.stop_st : s.stop.st = s.st := rfl
@[simp] theorem State.stop_fb : s.stop.fb = s.fb := rfl
@[simp] theorem State.stop_kwWaiting : s.stop.kwWaiting = s.kwWaiting := rfl
@[simp] theorem State.stop_kwReg : s.stop.kwReg = s.kwReg := rfl
@[simp] theorem State.stop_kwKey : s.stop.kwKey = s.kwKey := rfl
@[simp] theorem State.stop_mem : s.stop.mem = s.mem := rfl
@[simp] theorem State.stop_status : s.stop.status = .stopped := rfl
@[simp] theorem State.stop_faultCause : s.stop.faultCause = .collaboratorFailure := rfl
@[simp] theorem State.stop_faultPc : s.stop.faultPc = s.pc := rfl
@[simp] theorem State.stop_faultAddr : s.stop.faultAddr = 0#17 := rfl
@[simp] theorem State.stop_cpuMarker : s.stop.cpuMarker = s.cpuMarker := rfl
@[simp] theorem State.stop_dispMarker : s.stop.dispMarker = s.dispMarker := rfl
@[simp] theorem State.stop_render : s.stop.render = s.render := rfl
@[simp] theorem State.stop_buzz : s.stop.buzz = s.buzz := rfl
@[simp] theorem State.stop_ports : s.stop.ports = s.ports := rfl
@[simp] theorem State.stop_timeNs : s.stop.timeNs = s.timeNs := rfl
@[simp] theorem State.stop_params : s.stop.params = s.params := rfl
@[simp] theorem State.stop_agenda : s.stop.agenda = s.agenda := rfl
@[simp] theorem State.stop_inputs : s.stop.inputs = s.inputs := rfl
@[simp] theorem State.stop_draws : s.stop.draws = s.draws := rfl
@[simp] theorem State.stop_freeTicks : s.stop.freeTicks = s.freeTicks := rfl

/-! ### `State.countTimers` -/

@[simp] theorem State.countTimers_v : s.countTimers.v = s.v := rfl
@[simp] theorem State.countTimers_idx : s.countTimers.idx = s.idx := rfl
@[simp] theorem State.countTimers_pc : s.countTimers.pc = s.pc := rfl
@[simp] theorem State.countTimers_stack : s.countTimers.stack = s.stack := rfl
@[simp] theorem State.countTimers_sp : s.countTimers.sp = s.sp := rfl
@[simp] theorem State.countTimers_dt : s.countTimers.dt = countDown s.dt := rfl
@[simp] theorem State.countTimers_st : s.countTimers.st = countDown s.st := rfl
@[simp] theorem State.countTimers_fb : s.countTimers.fb = s.fb := rfl
@[simp] theorem State.countTimers_kwWaiting : s.countTimers.kwWaiting = s.kwWaiting := rfl
@[simp] theorem State.countTimers_kwReg : s.countTimers.kwReg = s.kwReg := rfl
@[simp] theorem State.countTimers_kwKey : s.countTimers.kwKey = s.kwKey := rfl
@[simp] theorem State.countTimers_mem : s.countTimers.mem = s.mem := rfl
@[simp] theorem State.countTimers_status : s.countTimers.status = s.status := rfl
@[simp] theorem State.countTimers_faultCause : s.countTimers.faultCause = s.faultCause := rfl
@[simp] theorem State.countTimers_faultPc : s.countTimers.faultPc = s.faultPc := rfl
@[simp] theorem State.countTimers_faultAddr : s.countTimers.faultAddr = s.faultAddr := rfl
@[simp] theorem State.countTimers_cpuMarker : s.countTimers.cpuMarker = s.cpuMarker := rfl
@[simp] theorem State.countTimers_dispMarker : s.countTimers.dispMarker = s.dispMarker := rfl
@[simp] theorem State.countTimers_render : s.countTimers.render = s.render := rfl
@[simp] theorem State.countTimers_buzz : s.countTimers.buzz = s.buzz := rfl
@[simp] theorem State.countTimers_ports : s.countTimers.ports = s.ports := rfl
@[simp] theorem State.countTimers_timeNs : s.countTimers.timeNs = s.timeNs := rfl
@[simp] theorem State.countTimers_params : s.countTimers.params = s.params := rfl
@[simp] theorem State.countTimers_agenda : s.countTimers.agenda = s.agenda := rfl
@[simp] theorem State.countTimers_inputs : s.countTimers.inputs = s.inputs := rfl
@[simp] theorem State.countTimers_draws : s.countTimers.draws = s.draws := rfl
@[simp] theorem State.countTimers_freeTicks : s.countTimers.freeTicks = s.freeTicks := rfl

/-! ### `State.lowerStrobes` -/

@[simp] theorem State.lowerStrobes_v : s.lowerStrobes.v = s.v := rfl
@[simp] theorem State.lowerStrobes_idx : s.lowerStrobes.idx = s.idx := rfl
@[simp] theorem State.lowerStrobes_pc : s.lowerStrobes.pc = s.pc := rfl
@[simp] theorem State.lowerStrobes_stack : s.lowerStrobes.stack = s.stack := rfl
@[simp] theorem State.lowerStrobes_sp : s.lowerStrobes.sp = s.sp := rfl
@[simp] theorem State.lowerStrobes_dt : s.lowerStrobes.dt = s.dt := rfl
@[simp] theorem State.lowerStrobes_st : s.lowerStrobes.st = s.st := rfl
@[simp] theorem State.lowerStrobes_fb : s.lowerStrobes.fb = s.fb := rfl
@[simp] theorem State.lowerStrobes_kwWaiting : s.lowerStrobes.kwWaiting = s.kwWaiting := rfl
@[simp] theorem State.lowerStrobes_kwReg : s.lowerStrobes.kwReg = s.kwReg := rfl
@[simp] theorem State.lowerStrobes_kwKey : s.lowerStrobes.kwKey = s.kwKey := rfl
@[simp] theorem State.lowerStrobes_mem : s.lowerStrobes.mem = s.mem := rfl
@[simp] theorem State.lowerStrobes_status : s.lowerStrobes.status = s.status := rfl
@[simp] theorem State.lowerStrobes_faultCause : s.lowerStrobes.faultCause = s.faultCause := rfl
@[simp] theorem State.lowerStrobes_faultPc : s.lowerStrobes.faultPc = s.faultPc := rfl
@[simp] theorem State.lowerStrobes_faultAddr : s.lowerStrobes.faultAddr = s.faultAddr := rfl
@[simp] theorem State.lowerStrobes_cpuMarker : s.lowerStrobes.cpuMarker = s.cpuMarker := rfl
@[simp] theorem State.lowerStrobes_dispMarker : s.lowerStrobes.dispMarker = s.dispMarker := rfl
@[simp] theorem State.lowerStrobes_render : s.lowerStrobes.render = false := rfl
@[simp] theorem State.lowerStrobes_buzz : s.lowerStrobes.buzz = false := rfl
@[simp] theorem State.lowerStrobes_ports : s.lowerStrobes.ports = s.ports := rfl
@[simp] theorem State.lowerStrobes_timeNs : s.lowerStrobes.timeNs = s.timeNs := rfl
@[simp] theorem State.lowerStrobes_params : s.lowerStrobes.params = s.params := rfl
@[simp] theorem State.lowerStrobes_agenda : s.lowerStrobes.agenda = s.agenda := rfl
@[simp] theorem State.lowerStrobes_inputs : s.lowerStrobes.inputs = s.inputs := rfl
@[simp] theorem State.lowerStrobes_draws : s.lowerStrobes.draws = s.draws := rfl
@[simp] theorem State.lowerStrobes_freeTicks : s.lowerStrobes.freeTicks = s.freeTicks := rfl

end Sys2Proof.Machine
end

