-- ==== Sys2Proof/Laws/Ops.lean ====
section
/-! SUPPORT. What each shared operation does: registers, skips, the stack, blocks of registers, the guards of the
range and key checks, and the order of the flag writes. -/

namespace Sys2Proof.Machine

/-- A read after a write in a vector. -/
theorem getElem_set_fin {α : Type} {n : Nat} (v : Vector α n) (i j : Fin n) (a : α) :
    (v.set i a)[j] = if j = i then a else v[j] := by
  simp only [Fin.getElem_fin, Vector.getElem_set]
  split <;> rename_i h <;> simp_all [Fin.ext_iff, eq_comm]

/-! ## Numbers that index -/

theorem stackSlot_val {n : Nat} (h : n < 16) : (stackSlot n).val = n := Nat.mod_eq_of_lt h

theorem stackCount_val {n : Nat} (h : n < 17) : (stackCount n).val = n := Nat.mod_eq_of_lt h

theorem regNumber_val {n : Nat} (h : n < 16) : (regNumber n).val = n := Nat.mod_eq_of_lt h

@[simp] theorem regNumber_of_reg (r : Reg) : regNumber r.val = r := Fin.ext (Nat.mod_eq_of_lt r.isLt)

theorem screenColumn_val (n : Nat) : (screenColumn n).val = n % 64 := rfl

theorem screenRow_val (n : Nat) : (screenRow n).val = n % 32 := rfl

/-! ## Registers -/

theorem State.getV_setV (s : State) (r r' : Reg) (b : Byte) :
    (s.setV r b).getV r' = if r' = r then b else s.getV r' := getElem_set_fin _ _ _ _

@[simp] theorem State.getV_setV_same (s : State) (r : Reg) (b : Byte) : (s.setV r b).getV r = b := by
  simp [State.getV_setV]

@[simp] theorem State.getV_setPc (s : State) (w : Word) (r : Reg) : (s.setPc w).getV r = s.getV r := rfl

@[simp] theorem State.getV_advance (s : State) (r : Reg) : s.advance.getV r = s.getV r := rfl

/-- Writing a register the value it holds changes nothing. -/
theorem State.setV_getV (s : State) (r : Reg) : s.setV r (s.getV r) = s := by
  have h : s.v.set r (s.getV r) = s.v := by
    ext i hi
    simp only [Vector.getElem_set, State.getV, Fin.getElem_fin]
    split <;> simp_all
  simp only [State.setV, h]

/-- VF first, then the result: the result survives in register `x`, the flag in VF when that is another register. -/
theorem State.getV_flagThenResult (s : State) (x r : Reg) (flag result : Byte) :
    (s.flagThenResult x flag result).getV r = if r = x then result else if r = flagReg then flag else s.getV r := by
  simp only [State.flagThenResult, State.getV_setV]

/-- The result first, then VF: the flag survives in VF, the result in register `x` when that is another register. -/
theorem State.getV_resultThenFlag (s : State) (x r : Reg) (result flag : Byte) :
    (s.resultThenFlag x result flag).getV r = if r = flagReg then flag else if r = x then result else s.getV r := by
  simp only [State.resultThenFlag, State.getV_setV]

/-- The two orders change nothing but the registers. -/
theorem State.flagThenResult_eq (s : State) (x : Reg) (flag result : Byte) :
    s.flagThenResult x flag result = { s with v := (s.flagThenResult x flag result).v } := rfl

theorem State.resultThenFlag_eq (s : State) (x : Reg) (result flag : Byte) :
    s.resultThenFlag x result flag = { s with v := (s.resultThenFlag x result flag).v } := rfl

theorem State.writeDifference_eq (s : State) (mode : FlagMode) (x : Reg) (a b : Byte) :
    s.writeDifference mode x a b = { s with v := (s.writeDifference mode x a b).v } := by
  cases mode <;> rfl

/-! ## The program counter -/

/-- The rewind of the key wait undoes the common advance. -/
@[simp] theorem State.rewind_advance (s : State) : s.advance.rewind = s := by
  simp [State.rewind, State.advance, State.setPc]

theorem State.skipIf_eq (s : State) (c : Bool) : s.skipIf c = s.setPc (if c then s.pc + 2#16 else s.pc) := by
  cases c <;> rfl

/-! ## The stack -/

theorem State.pushPc_getElem (s : State) (h : s.sp.val < 16) (k : Fin 16) :
    s.pushPc.stack[k] = if k.val = s.sp.val then s.pc else s.stack[k] := by
  rw [State.pushPc_stack, getElem_set_fin]
  simp only [Fin.ext_iff, stackSlot_val h]

theorem State.pushPc_sp_val (s : State) (h : s.sp.val < 16) : s.pushPc.sp.val = s.sp.val + 1 :=
  stackCount_val (by omega)

theorem State.popPc_sp_val (s : State) : s.popPc.sp.val = s.sp.val - 1 := stackCount_val (by omega)

/-- A pop after a push restores the stack pointer and the PC pushed. -/
theorem State.popPc_pushPc (s : State) (h : s.sp.val < 16) :
    s.pushPc.popPc.sp = s.sp ∧ s.pushPc.popPc.pc = s.pc := by
  have hsp : s.pushPc.sp.val = s.sp.val + 1 := s.pushPc_sp_val h
  constructor
  · rw [Fin.ext_iff, State.popPc_sp_val, hsp]; omega
  · rw [State.popPc_pc, State.pushPc_getElem s h, if_pos]
    rw [hsp, stackSlot_val (by omega)]; omega

/-! ## Blocks of registers -/

@[simp] theorem State.length_regsUpTo (s : State) (x : Reg) : (s.regsUpTo x).length = x.val + 1 := by
  simp [State.regsUpTo]

theorem State.getElem_regsUpTo (s : State) (x : Reg) (k : Nat) (h : k < (s.regsUpTo x).length) :
    (s.regsUpTo x)[k] = s.getV (regNumber k) := by
  simp [State.regsUpTo]

theorem State.getV_loadRegs (s : State) (x r : Reg) (a : Nat) :
    (s.loadRegs x a).getV r = if r ≤ x then s.readByte (a + r.val) else s.getV r := by
  simp [State.getV, State.loadRegs, State.loadedRegs]

/-! ## The guards -/

theorem leavesMemory_iff (base n : Nat) : leavesMemory base n = true ↔ 0 < n ∧ 0x1000 < base + n := by
  simp only [leavesMemory, Bool.and_eq_true, decide_eq_true_eq]; omega

/-- The range check: the fault with nothing else, or the effect. -/
theorem State.guardData_eq (s : State) (n : Nat) (t : State) :
    (0 < n ∧ 0x1000 < s.idx.toNat + n ∧
      s.guardData n t = s.takeFault .dataRangeFault (firstOutOfRange s.idx.toNat)) ∨
    ((n = 0 ∨ s.idx.toNat + n ≤ 0x1000) ∧ s.guardData n t = t) := by
  unfold State.guardData
  split <;> rename_i h <;> rw [leavesMemory_iff] at h
  · exact .inl ⟨h.1, h.2, rfl⟩
  · exact .inr ⟨by omega, rfl⟩

/-- The key check: the fault with nothing else, or the effect. -/
theorem State.guardKey_eq (s : State) (k : Byte) (t : State) :
    (15 < k.toNat ∧ s.guardKey k t = s.takeFault .keyIndexFault (k.setWidth 17)) ∨
    (k.toNat ≤ 15 ∧ s.guardKey k t = t) := by
  unfold State.guardKey
  split
  · exact .inl ⟨‹_›, rfl⟩
  · exact .inr ⟨by omega, rfl⟩

theorem firstOutOfRange_toNat (base : Nat) (h : base < 0x20000) : (firstOutOfRange base).toNat = max base 0x1000 := by
  simp only [firstOutOfRange, BitVec.toNat_ofNat]; omega

/-! ## Flags -/

@[simp] theorem flagByte_true : flagByte true = 0x01#8 := rfl

@[simp] theorem flagByte_false : flagByte false = 0x00#8 := rfl

end Sys2Proof.Machine
end

