-- ==== Sys2Proof/Laws/Draw.lean ====
section
/-! SUPPORT. What drawing a sprite does: each pixel the sprite covers is toggled once, and a collision is noted when
one of them was on (spec/42_display.md R171, R173). -/

namespace Sys2Proof.Machine

/-- A pixel read after a pixel write. -/
theorem pixel_setPixel (fb : Framebuffer) (x x' : Fin 64) (y y' : Fin 32) (b : Bool) :
    pixel (setPixel fb x y b) x' y' = if x' = x ∧ y' = y then b else pixel fb x' y' := by
  have hcol : (setPixel fb x y b)[x'] = if x' = x then fb[x].set y b else fb[x'] := getElem_set_fin _ _ _ _
  unfold pixel
  rw [hcol]
  by_cases hx : x' = x
  · subst hx
    rw [if_pos rfl, getElem_set_fin]
    simp
  · simp [hx]

/-- Toggling a pixel changes that pixel and no other. -/
theorem pixel_togglePixel (d : Drawing) (x x' : Fin 64) (y y' : Fin 32) :
    pixel (togglePixel d x y).1 x' y' = (pixel d.1 x' y' ^^ (decide (x' = x) && decide (y' = y))) := by
  simp only [togglePixel, pixel_setPixel]
  by_cases hx : x' = x <;> by_cases hy : y' = y <;> simp [hx, hy]

/-- The columns of a row of pixels are distinct. -/
theorem column_injective {vx c c' : Nat} (hc : c < 8) (hc' : c' < 8)
    (h : screenColumn (vx + c) = screenColumn (vx + c')) : c = c' := by
  simp only [Fin.ext_iff, screenColumn_val] at h; omega

/-- A row of a sprite covers the pixel in column `x`. -/
def rowCovers (vx : Nat) (b : Byte) (cols : List Nat) (x : Fin 64) : Bool :=
  cols.any fun c => b.getLsbD (7 - c) && decide (x = screenColumn (vx + c))

/-- One column of a row: toggled when its bit is set. -/
def drawColumn (vx vy : Nat) (b : Byte) (d : Drawing) (c : Nat) : Drawing :=
  if b.getLsbD (7 - c) then togglePixel d (screenColumn (vx + c)) (screenRow vy) else d

theorem drawRow_eq (vx vy : Nat) (b : Byte) (d : Drawing) :
    drawRow vx vy b d = (List.range 8).foldl (drawColumn vx vy b) d := rfl

theorem pixel_drawColumn (vx vy : Nat) (b : Byte) (d : Drawing) (c : Nat) (x : Fin 64) (y : Fin 32) :
    pixel (drawColumn vx vy b d c).1 x y =
      (pixel d.1 x y ^^ (rowCovers vx b [c] x && decide (y = screenRow vy))) := by
  unfold drawColumn rowCovers
  cases hb : b.getLsbD (7 - c) <;> simp [hb, pixel_togglePixel]

theorem collision_drawColumn (vx vy : Nat) (b : Byte) (d : Drawing) (c : Nat) :
    (drawColumn vx vy b d c).2 =
      (d.2 || (b.getLsbD (7 - c) && pixel d.1 (screenColumn (vx + c)) (screenRow vy))) := by
  unfold drawColumn
  cases hb : b.getLsbD (7 - c) <;> simp [togglePixel]

theorem any_congr_mem {l : List Nat} {p q : Nat → Bool} (h : ∀ a ∈ l, p a = q a) : l.any p = l.any q := by
  induction l with
  | nil => rfl
  | cons a l ih =>
    rw [List.any_cons, List.any_cons, h a List.mem_cons_self, ih fun b hb => h b (List.mem_cons_of_mem _ hb)]

/-- The columns of a list, each drawn once. -/
theorem drawColumns (vx vy : Nat) (b : Byte) (cols : List Nat) (hlt : ∀ c ∈ cols, c < 8) (hnd : cols.Nodup)
    (d : Drawing) :
    (∀ x y, pixel (cols.foldl (drawColumn vx vy b) d).1 x y =
      (pixel d.1 x y ^^ (rowCovers vx b cols x && decide (y = screenRow vy)))) ∧
    (cols.foldl (drawColumn vx vy b) d).2 =
      (d.2 || cols.any fun c => b.getLsbD (7 - c) && pixel d.1 (screenColumn (vx + c)) (screenRow vy)) := by
  induction cols generalizing d with
  | nil => simp [rowCovers]
  | cons c cols ih =>
    obtain ⟨hc, hcols⟩ := List.nodup_cons.mp hnd
    have ih := ih (fun c' h => hlt c' (List.mem_cons_of_mem _ h)) hcols (drawColumn vx vy b d c)
    have apart : ∀ c' ∈ cols, screenColumn (vx + c') ≠ screenColumn (vx + c) := fun c' h' he =>
      hc (column_injective (hlt c' (List.mem_cons_of_mem _ h')) (hlt c List.mem_cons_self) he ▸ h')
    constructor
    · intro x y
      rw [List.foldl_cons, ih.1 x y, pixel_drawColumn]
      have hx : rowCovers vx b (c :: cols) x = (rowCovers vx b [c] x || rowCovers vx b cols x) := by
        simp [rowCovers]
      have hno : (rowCovers vx b [c] x && rowCovers vx b cols x) = false := by
        rw [Bool.and_eq_false_iff]
        by_cases h : x = screenColumn (vx + c)
        · right
          simp only [rowCovers, List.any_eq_false, Bool.and_eq_true, decide_eq_true_eq, not_and]
          exact fun c' h' _ he => apart c' h' (he.symm.trans h)
        · left; simp [rowCovers, h]
      rw [hx]
      revert hno
      cases pixel d.1 x y <;> cases rowCovers vx b [c] x <;> cases rowCovers vx b cols x <;>
        cases decide (y = screenRow vy) <;> simp
    · rw [List.foldl_cons, ih.2, collision_drawColumn, List.any_cons, Bool.or_assoc]
      congr 2
      refine any_congr_mem fun c' h' => ?_
      rw [pixel_drawColumn]
      simp [rowCovers, apart c' h']

/-- One row of a sprite: the pixels it covers are toggled, and one that was on is a collision. -/
theorem pixel_drawRow (vx vy : Nat) (b : Byte) (d : Drawing) (x : Fin 64) (y : Fin 32) :
    pixel (drawRow vx vy b d).1 x y =
      (pixel d.1 x y ^^ (rowCovers vx b (List.range 8) x && decide (y = screenRow vy))) := by
  rw [drawRow_eq]
  exact (drawColumns vx vy b (List.range 8) (fun _ h => List.mem_range.mp h) List.nodup_range d).1 x y

theorem collision_drawRow (vx vy : Nat) (b : Byte) (d : Drawing) :
    (drawRow vx vy b d).2 = (d.2 || (List.range 8).any fun c =>
      b.getLsbD (7 - c) && pixel d.1 (screenColumn (vx + c)) (screenRow vy)) := by
  rw [drawRow_eq]
  exact (drawColumns vx vy b (List.range 8) (fun _ h => List.mem_range.mp h) List.nodup_range d).2

/-- A sprite whose first row is at row `vy` covers the pixel `(x, y)`. -/
def spriteCovers (vx : Nat) : Nat → List Byte → Fin 64 → Fin 32 → Bool
  | _, [], _, _ => false
  | vy, b :: bs, x, y =>
    (rowCovers vx b (List.range 8) x && decide (y = screenRow vy)) || spriteCovers vx (vy + 1) bs x y

/-- A sprite covers a pixel only on its own rows. -/
theorem spriteCovers_row {vx vy : Nat} {bs : List Byte} {x : Fin 64} {y : Fin 32}
    (h : spriteCovers vx vy bs x y = true) : ∃ r < bs.length, y = screenRow (vy + r) := by
  induction bs generalizing vy with
  | nil => simp [spriteCovers] at h
  | cons b bs ih =>
    simp only [spriteCovers, Bool.or_eq_true, Bool.and_eq_true, decide_eq_true_eq] at h
    rcases h with h | h
    · exact ⟨0, by simp, by simpa using h.2⟩
    · obtain ⟨r, hr, hy⟩ := ih h
      exact ⟨r + 1, by simpa using hr, by rw [hy]; congr 1; omega⟩

/-- A sprite of at most 32 rows toggles each pixel it covers once. -/
theorem pixel_drawRows (vx vy : Nat) (bs : List Byte) (hlen : bs.length ≤ 32) (d : Drawing) (x : Fin 64)
    (y : Fin 32) :
    pixel (drawRows vx vy bs d).1 x y = (pixel d.1 x y ^^ spriteCovers vx vy bs x y) := by
  induction bs generalizing vy d with
  | nil => simp [drawRows, spriteCovers]
  | cons b bs ih =>
    rw [drawRows, ih (vy + 1) (by simp at hlen; omega), pixel_drawRow]
    have hno : ((rowCovers vx b (List.range 8) x && decide (y = screenRow vy)) &&
        spriteCovers vx (vy + 1) bs x y) = false := by
      rw [Bool.and_eq_false_iff]
      by_cases hc : spriteCovers vx (vy + 1) bs x y = true
      · left
        obtain ⟨r, hr, hy⟩ := spriteCovers_row hc
        have : y ≠ screenRow vy := by
          rw [hy]
          simp only [ne_eq, Fin.ext_iff, screenRow_val]
          simp only [List.length_cons] at hlen
          omega
        simp [this]
      · right; simpa using hc
    simp only [spriteCovers]
    revert hno
    generalize (rowCovers vx b (List.range 8) x && decide (y = screenRow vy)) = p
    cases pixel d.1 x y <;> cases p <;> cases spriteCovers vx (vy + 1) bs x y <;> simp

/-- A collision is a covered pixel that was on. -/
theorem collision_drawRows (vx vy : Nat) (bs : List Byte) (hlen : bs.length ≤ 32) (d : Drawing) :
    (drawRows vx vy bs d).2 = true ↔
      d.2 = true ∨ ∃ x y, spriteCovers vx vy bs x y = true ∧ pixel d.1 x y = true := by
  induction bs generalizing vy d with
  | nil => simp [drawRows, spriteCovers]
  | cons b bs ih =>
    rw [drawRows, ih (vy + 1) (by simp at hlen; omega), collision_drawRow]
    simp only [Bool.or_eq_true, List.any_eq_true, List.mem_range, Bool.and_eq_true, spriteCovers,
      decide_eq_true_eq, or_assoc]
    refine or_congr_right ?_
    have off : ∀ x y, spriteCovers vx (vy + 1) bs x y = true → pixel (drawRow vx vy b d).1 x y = pixel d.1 x y := by
      intro x y hc
      obtain ⟨r, hr, hy⟩ := spriteCovers_row hc
      have : y ≠ screenRow vy := by
        rw [hy]
        simp only [ne_eq, Fin.ext_iff, screenRow_val]
        simp only [List.length_cons] at hlen
        omega
      simp [pixel_drawRow, this]
    constructor
    · rintro (⟨c, hc, hb, hp⟩ | ⟨x, y, hc, hp⟩)
      · refine ⟨_, _, .inl ⟨?_, rfl⟩, hp⟩
        simp only [rowCovers, List.any_eq_true, List.mem_range]
        exact ⟨c, hc, by simp [hb]⟩
      · exact ⟨x, y, .inr hc, off x y hc ▸ hp⟩
    · rintro ⟨x, y, ⟨hr, hy⟩ | hc, hp⟩
      · left
        simp only [rowCovers, List.any_eq_true, List.mem_range, Bool.and_eq_true, decide_eq_true_eq] at hr
        obtain ⟨c, hc, hb, hx⟩ := hr
        exact ⟨c, hc, hb, by rw [← hx, ← hy]; exact hp⟩
      · exact .inr ⟨x, y, hc, (off x y hc).trans hp⟩

end Sys2Proof.Machine
end

