-- ==== Sys2Proof/Laws/PerInstr.lean ====
section
/-! SUPPORT. Statements made for each instruction as syntax, one lemma for each constructor. -/

namespace Sys2Proof.Laws.RowMatch

/-- The word of an instruction matches the row of spec/opcode_table.json the instruction stands for
(spec/30_encoding.md R101). -/
def Statement (i : Instr) : Prop := (opcodeTable[i.row]?).any (rowMatches (encode i)) = true

/-- A word that the row's mask takes to the row's match. -/
theorem of_and {i : Instr} {row : Word × Word} (hrow : opcodeTable[i.row]? = some row)
    (hand : encode i &&& row.2 = row.1) : Statement i := by
  simp [Statement, hrow, rowMatches, hand]

theorem nibble_and (n : Nibble) : n &&& 0xF#4 = n := BitVec.and_allOnes

theorem byte_and (b : Byte) : b &&& 0xFF#8 = b := BitVec.and_allOnes

theorem and_formatNNN (op : Nibble) (nnn : Addr) : formatNNN op nnn &&& 0xF000#16 = op ++ 0x000#12 := by
  change (op ++ nnn) &&& (0xF#4 ++ 0x000#12) = op ++ 0x000#12
  rw [BitVec.and_append, nibble_and, BitVec.and_zero]

theorem and_formatXNN (op : Nibble) (x : Reg) (nn : Byte) :
    formatXNN op x nn &&& 0xF000#16 = op ++ 0x0#4 ++ 0x00#8 := by
  change (op ++ nibbleOf x ++ nn) &&& (0xF#4 ++ 0x0#4 ++ 0x00#8) = op ++ 0x0#4 ++ 0x00#8
  rw [BitVec.and_append, BitVec.and_append, nibble_and, BitVec.and_zero, BitVec.and_zero]

theorem and_formatXNN_sub (op : Nibble) (x : Reg) (nn : Byte) :
    formatXNN op x nn &&& 0xF0FF#16 = op ++ 0x0#4 ++ nn := by
  change (op ++ nibbleOf x ++ nn) &&& (0xF#4 ++ 0x0#4 ++ 0xFF#8) = op ++ 0x0#4 ++ nn
  rw [BitVec.and_append, BitVec.and_append, nibble_and, BitVec.and_zero, byte_and]

theorem and_formatXYN (op : Nibble) (x y : Reg) (n : Nibble) :
    formatXYN op x y n &&& 0xF000#16 = op ++ 0x0#4 ++ 0x0#4 ++ 0x0#4 := by
  change (op ++ nibbleOf x ++ nibbleOf y ++ n) &&& (0xF#4 ++ 0x0#4 ++ 0x0#4 ++ 0x0#4) =
    op ++ 0x0#4 ++ 0x0#4 ++ 0x0#4
  rw [BitVec.and_append, BitVec.and_append, BitVec.and_append, nibble_and, BitVec.and_zero, BitVec.and_zero,
    BitVec.and_zero]

theorem and_formatXYN_sub (op : Nibble) (x y : Reg) (n : Nibble) :
    formatXYN op x y n &&& 0xF00F#16 = op ++ 0x0#4 ++ 0x0#4 ++ n := by
  change (op ++ nibbleOf x ++ nibbleOf y ++ n) &&& (0xF#4 ++ 0x0#4 ++ 0x0#4 ++ 0xF#4) = op ++ 0x0#4 ++ 0x0#4 ++ n
  rw [BitVec.and_append, BitVec.and_append, BitVec.and_append, nibble_and, nibble_and, BitVec.and_zero,
    BitVec.and_zero]

theorem cls : Statement .cls := rfl

theorem ret : Statement .ret := rfl

theorem sys (nnn : Addr) : Statement (.sys nnn) :=
  of_and rfl (and_formatNNN _ _)

theorem jp (nnn : Addr) : Statement (.jp nnn) :=
  of_and rfl (and_formatNNN _ _)

theorem call (nnn : Addr) : Statement (.call nnn) :=
  of_and rfl (and_formatNNN _ _)

theorem seImm (x : Reg) (nn : Byte) : Statement (.seImm x nn) :=
  of_and rfl (and_formatXNN _ _ _)

theorem sneImm (x : Reg) (nn : Byte) : Statement (.sneImm x nn) :=
  of_and rfl (and_formatXNN _ _ _)

theorem seReg (x y : Reg) : Statement (.seReg x y) :=
  of_and rfl (and_formatXYN _ _ _ _)

theorem ldImm (x : Reg) (nn : Byte) : Statement (.ldImm x nn) :=
  of_and rfl (and_formatXNN _ _ _)

theorem addImm (x : Reg) (nn : Byte) : Statement (.addImm x nn) :=
  of_and rfl (and_formatXNN _ _ _)

theorem ldReg (x y : Reg) : Statement (.ldReg x y) :=
  of_and rfl (and_formatXYN_sub _ _ _ _)

theorem orReg (x y : Reg) : Statement (.orReg x y) :=
  of_and rfl (and_formatXYN_sub _ _ _ _)

theorem andReg (x y : Reg) : Statement (.andReg x y) :=
  of_and rfl (and_formatXYN_sub _ _ _ _)

theorem xorReg (x y : Reg) : Statement (.xorReg x y) :=
  of_and rfl (and_formatXYN_sub _ _ _ _)

theorem addReg (x y : Reg) : Statement (.addReg x y) :=
  of_and rfl (and_formatXYN_sub _ _ _ _)

theorem sub (x y : Reg) : Statement (.sub x y) :=
  of_and rfl (and_formatXYN_sub _ _ _ _)

theorem shr (x y : Reg) : Statement (.shr x y) :=
  of_and rfl (and_formatXYN_sub _ _ _ _)

theorem subn (x y : Reg) : Statement (.subn x y) :=
  of_and rfl (and_formatXYN_sub _ _ _ _)

theorem shl (x y : Reg) : Statement (.shl x y) :=
  of_and rfl (and_formatXYN_sub _ _ _ _)

theorem nop8 (x y : Reg) (n : Nibble) : Statement (.nop8 x y n) :=
  of_and rfl (and_formatXYN _ _ _ _)

theorem sneReg (x y : Reg) : Statement (.sneReg x y) :=
  of_and rfl (and_formatXYN _ _ _ _)

theorem ldI (nnn : Addr) : Statement (.ldI nnn) :=
  of_and rfl (and_formatNNN _ _)

theorem jpV0 (nnn : Addr) : Statement (.jpV0 nnn) :=
  of_and rfl (and_formatNNN _ _)

theorem rnd (x : Reg) (nn : Byte) : Statement (.rnd x nn) :=
  of_and rfl (and_formatXNN _ _ _)

theorem drw (x y : Reg) (n : Nibble) : Statement (.drw x y n) :=
  of_and rfl (and_formatXYN _ _ _ _)

theorem skp (x : Reg) : Statement (.skp x) :=
  of_and rfl (and_formatXNN_sub _ _ _)

theorem sknp (x : Reg) : Statement (.sknp x) :=
  of_and rfl (and_formatXNN_sub _ _ _)

theorem nopE (x : Reg) (nn : Byte) : Statement (.nopE x nn) :=
  of_and rfl (and_formatXNN _ _ _)

theorem ldVxDt (x : Reg) : Statement (.ldVxDt x) :=
  of_and rfl (and_formatXNN_sub _ _ _)

theorem ldVxK (x : Reg) : Statement (.ldVxK x) :=
  of_and rfl (and_formatXNN_sub _ _ _)

theorem ldDtVx (x : Reg) : Statement (.ldDtVx x) :=
  of_and rfl (and_formatXNN_sub _ _ _)

theorem ldStVx (x : Reg) : Statement (.ldStVx x) :=
  of_and rfl (and_formatXNN_sub _ _ _)

theorem addI (x : Reg) : Statement (.addI x) :=
  of_and rfl (and_formatXNN_sub _ _ _)

theorem ldF (x : Reg) : Statement (.ldF x) :=
  of_and rfl (and_formatXNN_sub _ _ _)

theorem ldB (x : Reg) : Statement (.ldB x) :=
  of_and rfl (and_formatXNN_sub _ _ _)

theorem ldMemVx (x : Reg) : Statement (.ldMemVx x) :=
  of_and rfl (and_formatXNN_sub _ _ _)

theorem ldVxMem (x : Reg) : Statement (.ldVxMem x) :=
  of_and rfl (and_formatXNN_sub _ _ _)

theorem nopF (x : Reg) (nn : Byte) : Statement (.nopF x nn) :=
  of_and rfl (and_formatXNN _ _ _)

end Sys2Proof.Laws.RowMatch
end

