-- ==== Sys2Proof/Laws/Step.lean ====
section
/-! SUPPORT. What entering a tick leaves as it was, and what one step can do. -/

namespace Sys2Proof.Machine

variable (s : State)

/-! ## Taking an event changes the agenda, the time, the markers and the counter of the free schedule alone -/

@[simp] theorem State.takeEvent_v : s.takeEvent.v = s.v := by
  unfold State.takeEvent; split <;> (try split) <;> (try split) <;> rfl

@[simp] theorem State.takeEvent_idx : s.takeEvent.idx = s.idx := by
  unfold State.takeEvent; split <;> (try split) <;> (try split) <;> rfl

@[simp] theorem State.takeEvent_pc : s.takeEvent.pc = s.pc := by
  unfold State.takeEvent; split <;> (try split) <;> (try split) <;> rfl

@[simp] theorem State.takeEvent_stack : s.takeEvent.stack = s.stack := by
  unfold State.takeEvent; split <;> (try split) <;> (try split) <;> rfl

@[simp] theorem State.takeEvent_sp : s.takeEvent.sp = s.sp := by
  unfold State.takeEvent; split <;> (try split) <;> (try split) <;> rfl

@[simp] theorem State.takeEvent_dt : s.takeEvent.dt = s.dt := by
  unfold State.takeEvent; split <;> (try split) <;> (try split) <;> rfl

@[simp] theorem State.takeEvent_st : s.takeEvent.st = s.st := by
  unfold State.takeEvent; split <;> (try split) <;> (try split) <;> rfl

@[simp] theorem State.takeEvent_fb : s.takeEvent.fb = s.fb := by
  unfold State.takeEvent; split <;> (try split) <;> (try split) <;> rfl

@[simp] theorem State.takeEvent_kwWaiting : s.takeEvent.kwWaiting = s.kwWaiting := by
  unfold State.takeEvent; split <;> (try split) <;> (try split) <;> rfl

@[simp] theorem State.takeEvent_kwReg : s.takeEvent.kwReg = s.kwReg := by
  unfold State.takeEvent; split <;> (try split) <;> (try split) <;> rfl

@[simp] theorem State.takeEvent_kwKey : s.takeEvent.kwKey = s.kwKey := by
  unfold State.takeEvent; split <;> (try split) <;> (try split) <;> rfl

@[simp] theorem State.takeEvent_mem : s.takeEvent.mem = s.mem := by
  unfold State.takeEvent; split <;> (try split) <;> (try split) <;> rfl

@[simp] theorem State.takeEvent_status : s.takeEvent.status = s.status := by
  unfold State.takeEvent; split <;> (try split) <;> (try split) <;> rfl

@[simp] theorem State.takeEvent_faultCause : s.takeEvent.faultCause = s.faultCause := by
  unfold State.takeEvent; split <;> (try split) <;> (try split) <;> rfl

@[simp] theorem State.takeEvent_faultPc : s.takeEvent.faultPc = s.faultPc := by
  unfold State.takeEvent; split <;> (try split) <;> (try split) <;> rfl

@[simp] theorem State.takeEvent_faultAddr : s.takeEvent.faultAddr = s.faultAddr := by
  unfold State.takeEvent; split <;> (try split) <;> (try split) <;> rfl

@[simp] theorem State.takeEvent_render : s.takeEvent.render = s.render := by
  unfold State.takeEvent; split <;> (try split) <;> (try split) <;> rfl

@[simp] theorem State.takeEvent_buzz : s.takeEvent.buzz = s.buzz := by
  unfold State.takeEvent; split <;> (try split) <;> (try split) <;> rfl

@[simp] theorem State.takeEvent_ports : s.takeEvent.ports = s.ports := by
  unfold State.takeEvent; split <;> (try split) <;> (try split) <;> rfl

@[simp] theorem State.takeEvent_params : s.takeEvent.params = s.params := by
  unfold State.takeEvent; split <;> (try split) <;> (try split) <;> rfl

@[simp] theorem State.takeEvent_inputs : s.takeEvent.inputs = s.inputs := by
  unfold State.takeEvent; split <;> (try split) <;> (try split) <;> rfl

@[simp] theorem State.takeEvent_draws : s.takeEvent.draws = s.draws := by
  unfold State.takeEvent; split <;> (try split) <;> (try split) <;> rfl

/-! ## The next event and what taking it does, by the head of the agenda -/

theorem State.nextAction_of_nil (h : s.agenda = []) :
    s.nextAction = if Config.freeDisplayTick s.freeTicks = true then .displayTick else .cpuTick := by
  simp [State.nextAction, h]

theorem State.takeEvent_of_nil (h : s.agenda = []) : s.takeEvent = { s with freeTicks := s.freeTicks + 1 } := by
  simp [State.takeEvent, h]

theorem State.nextAction_of_cpuTick {rest : List Event} (h : s.agenda = .cpuTick :: rest) : s.nextAction = .cpuTick := by
  simp [State.nextAction, h]

theorem State.takeEvent_of_cpuTick {rest : List Event} (h : s.agenda = .cpuTick :: rest) :
    s.takeEvent = { s with agenda := rest } := by
  simp [State.takeEvent, h]

theorem State.nextAction_of_displayTick {rest : List Event} (h : s.agenda = .displayTick :: rest) :
    s.nextAction = .displayTick := by
  simp [State.nextAction, h]

theorem State.takeEvent_of_displayTick {rest : List Event} (h : s.agenda = .displayTick :: rest) :
    s.takeEvent = { s with agenda := rest } := by
  simp [State.takeEvent, h]

theorem State.takeEvent_of_start {t0 : Time} {rest : List Event} (h : s.agenda = .start t0 :: rest)
    (hs : s.status = .running) :
    s.takeEvent = { s with timeNs := t0, cpuMarker := t0, dispMarker := t0, agenda := rest } := by
  simp [State.takeEvent, h, hs]

/-- The scheduler has a meaning at a time exactly when both rates are in bounds and the time is not past. -/
theorem State.timeRefusal_eq_none_iff (now : Time) :
    s.timeRefusal now = none ↔
      rateOk s.params.cpuHz = true ∧ rateOk s.params.displayHz = true ∧ s.timeNs.toNat ≤ now.toNat := by
  unfold State.timeRefusal
  cases rateOk s.params.cpuHz <;> cases rateOk s.params.displayHz <;> simp

/-! ## Sampling the ports changes the ports, the samples in store and the counter alone -/

@[simp] theorem State.samplePorts_v : s.samplePorts.v = s.v := by unfold State.samplePorts; split <;> rfl

@[simp] theorem State.samplePorts_idx : s.samplePorts.idx = s.idx := by unfold State.samplePorts; split <;> rfl

@[simp] theorem State.samplePorts_pc : s.samplePorts.pc = s.pc := by unfold State.samplePorts; split <;> rfl

@[simp] theorem State.samplePorts_stack : s.samplePorts.stack = s.stack := by unfold State.samplePorts; split <;> rfl

@[simp] theorem State.samplePorts_sp : s.samplePorts.sp = s.sp := by unfold State.samplePorts; split <;> rfl

@[simp] theorem State.samplePorts_dt : s.samplePorts.dt = s.dt := by unfold State.samplePorts; split <;> rfl

@[simp] theorem State.samplePorts_st : s.samplePorts.st = s.st := by unfold State.samplePorts; split <;> rfl

@[simp] theorem State.samplePorts_fb : s.samplePorts.fb = s.fb := by unfold State.samplePorts; split <;> rfl

@[simp] theorem State.samplePorts_kwWaiting : s.samplePorts.kwWaiting = s.kwWaiting := by unfold State.samplePorts; split <;> rfl

@[simp] theorem State.samplePorts_kwReg : s.samplePorts.kwReg = s.kwReg := by unfold State.samplePorts; split <;> rfl

@[simp] theorem State.samplePorts_kwKey : s.samplePorts.kwKey = s.kwKey := by unfold State.samplePorts; split <;> rfl

@[simp] theorem State.samplePorts_mem : s.samplePorts.mem = s.mem := by unfold State.samplePorts; split <;> rfl

@[simp] theorem State.samplePorts_status : s.samplePorts.status = s.status := by unfold State.samplePorts; split <;> rfl

@[simp] theorem State.samplePorts_faultCause : s.samplePorts.faultCause = s.faultCause := by unfold State.samplePorts; split <;> rfl

@[simp] theorem State.samplePorts_faultPc : s.samplePorts.faultPc = s.faultPc := by unfold State.samplePorts; split <;> rfl

@[simp] theorem State.samplePorts_faultAddr : s.samplePorts.faultAddr = s.faultAddr := by unfold State.samplePorts; split <;> rfl

@[simp] theorem State.samplePorts_cpuMarker : s.samplePorts.cpuMarker = s.cpuMarker := by unfold State.samplePorts; split <;> rfl

@[simp] theorem State.samplePorts_dispMarker : s.samplePorts.dispMarker = s.dispMarker := by unfold State.samplePorts; split <;> rfl

@[simp] theorem State.samplePorts_render : s.samplePorts.render = s.render := by unfold State.samplePorts; split <;> rfl

@[simp] theorem State.samplePorts_buzz : s.samplePorts.buzz = s.buzz := by unfold State.samplePorts; split <;> rfl

@[simp] theorem State.samplePorts_timeNs : s.samplePorts.timeNs = s.timeNs := by unfold State.samplePorts; split <;> rfl

@[simp] theorem State.samplePorts_params : s.samplePorts.params = s.params := by unfold State.samplePorts; split <;> rfl

@[simp] theorem State.samplePorts_freeTicks : s.samplePorts.freeTicks = s.freeTicks := by unfold State.samplePorts; split <;> rfl

@[simp] theorem State.samplePorts_agenda : s.samplePorts.agenda = s.agenda := by unfold State.samplePorts; split <;> rfl

/-! ## Entering a tick -/

@[simp] theorem State.enterTick_v : s.enterTick.v = s.v := by simp [State.enterTick]

@[simp] theorem State.enterTick_idx : s.enterTick.idx = s.idx := by simp [State.enterTick]

@[simp] theorem State.enterTick_pc : s.enterTick.pc = s.pc := by simp [State.enterTick]

@[simp] theorem State.enterTick_stack : s.enterTick.stack = s.stack := by simp [State.enterTick]

@[simp] theorem State.enterTick_sp : s.enterTick.sp = s.sp := by simp [State.enterTick]

@[simp] theorem State.enterTick_dt : s.enterTick.dt = s.dt := by simp [State.enterTick]

@[simp] theorem State.enterTick_st : s.enterTick.st = s.st := by simp [State.enterTick]

@[simp] theorem State.enterTick_fb : s.enterTick.fb = s.fb := by simp [State.enterTick]

@[simp] theorem State.enterTick_kwWaiting : s.enterTick.kwWaiting = s.kwWaiting := by simp [State.enterTick]

@[simp] theorem State.enterTick_kwReg : s.enterTick.kwReg = s.kwReg := by simp [State.enterTick]

@[simp] theorem State.enterTick_kwKey : s.enterTick.kwKey = s.kwKey := by simp [State.enterTick]

@[simp] theorem State.enterTick_mem : s.enterTick.mem = s.mem := by simp [State.enterTick]

@[simp] theorem State.enterTick_status : s.enterTick.status = s.status := by simp [State.enterTick]

@[simp] theorem State.enterTick_faultCause : s.enterTick.faultCause = s.faultCause := by simp [State.enterTick]

@[simp] theorem State.enterTick_faultPc : s.enterTick.faultPc = s.faultPc := by simp [State.enterTick]

@[simp] theorem State.enterTick_faultAddr : s.enterTick.faultAddr = s.faultAddr := by simp [State.enterTick]

@[simp] theorem State.enterTick_cpuMarker : s.enterTick.cpuMarker = s.takeEvent.cpuMarker := by simp [State.enterTick]

@[simp] theorem State.enterTick_dispMarker : s.enterTick.dispMarker = s.takeEvent.dispMarker := by simp [State.enterTick]

@[simp] theorem State.enterTick_render : s.enterTick.render = false := by simp [State.enterTick]

@[simp] theorem State.enterTick_buzz : s.enterTick.buzz = false := by simp [State.enterTick]

@[simp] theorem State.enterTick_timeNs : s.enterTick.timeNs = s.takeEvent.timeNs := by simp [State.enterTick]

@[simp] theorem State.enterTick_params : s.enterTick.params = s.params := by simp [State.enterTick]

@[simp] theorem State.enterTick_agenda : s.enterTick.agenda = s.takeEvent.agenda := by simp [State.enterTick]

@[simp] theorem State.enterTick_freeTicks : s.enterTick.freeTicks = s.takeEvent.freeTicks := by simp [State.enterTick]

@[simp] theorem State.enterTick_readByte (a : Nat) : s.enterTick.readByte a = s.readByte a := by
  simp [State.readByte]

@[simp] theorem State.enterTick_fetchWord : s.enterTick.fetchWord = s.fetchWord := by simp [State.fetchWord]

/-- With a sample in store, a tick runs on that sample. -/
theorem State.enterTick_ports_of_inputs {p : Ports} {rest : List Ports} (h : s.inputs = p :: rest) :
    s.enterTick.ports = p ∧ s.enterTick.inputs = rest := by
  simp [State.enterTick, State.samplePorts, h]

/-! ## What one step can do -/

variable {s}

/-- A step that answers a next state is a CPU tick, a display tick, a reset, or a scheduler event without a tick. -/
theorem step_cases {t : State} (h : step s = .next t) :
    (s.nextAction = .cpuTick ∧ cpuTick s.enterTick = .next t) ∨
    (s.nextAction = .displayTick ∧ t = displayTick s.enterTick) ∨
    (∃ rom, s.nextAction = .reset rom ∧ t = s.takeEvent.afterReset rom) ∨
    ((s.nextAction = .start ∨ s.nextAction = .passDone) ∧ t = s.takeEvent.lowerStrobes) := by
  unfold step runAction at h
  split at h <;> simp_all

/-- A CPU tick does nothing unless `RUNNING`, faults at a PC outside memory, and else runs the fetched instruction. -/
theorem cpuTick_cases (s : State) :
    (s.status ≠ .running ∧ cpuTick s = .next s) ∨
    (s.status = .running ∧ lastFetchPc < s.pc.toNat ∧
      cpuTick s = .next (s.takeFault .fetchRangeFault (firstOutOfRange s.pc.toNat))) ∨
    (s.status = .running ∧ s.pc.toNat ≤ lastFetchPc ∧ cpuTick s = exec (decode s.fetchWord) s) := by
  unfold cpuTick
  split
  · exact .inl ⟨‹_›, rfl⟩
  · rename_i h
    have h := Decidable.not_not.mp h
    split
    · exact .inr (.inl ⟨h, ‹_›, rfl⟩)
    · exact .inr (.inr ⟨h, by omega, rfl⟩)

/-! ## Runs of several steps -/

/-- A run of `n + 1` steps is a step and then a run of `n`. -/
theorem run_succ_of_step {n : Nat} {s t : State} (h : step s = .next t) :
    Sys2Proof.core.run (n + 1) s = Sys2Proof.core.run n t := by
  rw [Host.Core.run.eq_2 Sys2Proof.core s n, show Sys2Proof.core.step s = .next t from h]

/-- A run of `n + 1` steps that answers a next state began with a step that did. -/
theorem run_succ_cases {n : Nat} {s t : State} (h : Sys2Proof.core.run (n + 1) s = .next t) :
    ∃ u, step s = .next u ∧ Sys2Proof.core.run n u = .next t := by
  rw [Host.Core.run.eq_2 Sys2Proof.core s n] at h
  cases hs : step s with
  | next u => rw [show Sys2Proof.core.step s = .next u from hs] at h; exact ⟨u, rfl, h⟩
  | fault r => cases r
  | refused r => rw [show Sys2Proof.core.step s = .refused r from hs] at h; cases h

end Sys2Proof.Machine
end

