-- ==== Sys2Proof/Tests/Slice0.lean ====
section
/-! SUPPORT. Tests. The expected values are those of spec/95_test_vectors.md (the section is named at each part) or of
the rule a comment names; the words are written out from the encodings of spec/30_encoding.md. Also a witness for each
statement that has hypotheses: a concrete state and operands that meet them. -/

namespace Sys2Proof.Tests

open Sys2Proof.Machine Sys2Proof.Claims

/-! ## Building small states -/

/-- The state after reset with some registers preset. -/
def regs (l : List (Reg × Byte)) : State := l.foldl (fun s p => s.setV p.1 p.2) State.reset

/-- A state with some bytes preset from an address up. -/
def bytes (s : State) (a : Nat) (bs : List Byte) : State := s.storeBytes a bs

/-- A state whose next tick samples these keys. -/
def keys (s : State) (k : BitVec 16) : State :=
  { s with inputs := [{ keys := k, rnd := 0x00#8, renderFail := false, buzzFail := false }] }

/-- A sample of the ports in which nothing is pressed and nothing fails. -/
def quiet : Ports := { keys := 0x0000#16, rnd := 0x00#8, renderFail := false, buzzFail := false }

/-- The next state of an outcome, and `s` when there is none. -/
def nextOr (s : State) (o : Host.Outcome State Fault Refusal) : State :=
  match o with
  | .next t => t
  | .fault _ => s
  | .refused _ => s

/-- The state after one CPU tick that runs the word `w`, placed at the PC of `s`. -/
def tick (w : Nat) (s : State) : State := nextOr s (step (s.withFetchWord 16 w))

/-- The state after one display tick. -/
def display (s : State) : State := nextOr s (step { s with agenda := [.displayTick] })

/-- The status and the fault record (R28). -/
def record (s : State) : Status × Nat × Word × BitVec 17 := (s.status, s.faultCause.code, s.faultPc, s.faultAddr)

/-- The pixels of a row that are on, the columns rising. -/
def row (s : State) (y : Fin 32) : List Nat := (List.range 64).filter fun x => pixel s.fb (screenColumn x) y

/-- The number of pixels that are on. -/
def lit (s : State) : Nat := ((List.range 32).map fun y => (row s (screenRow y)).length).foldl (· + ·) 0

/-! ## Well-formedness: each check refuses an ill-formed term -/

theorem test_wf_refuses_sys_that_is_cls : (Instr.sys 0x0E0#12).wf = false := by decide

theorem test_wf_refuses_sys_that_is_ret : (Instr.sys 0x0EE#12).wf = false := by decide

theorem test_wf_refuses_nop8_of_assigned_nibbles :
    [0x0#4, 0x1#4, 0x2#4, 0x3#4, 0x4#4, 0x5#4, 0x6#4, 0x7#4, 0xE#4].all (fun n => !(Instr.nop8 1 2 n).wf) = true := by
  decide

theorem test_wf_refuses_nopE_of_assigned_bytes :
    [0x9E#8, 0xA1#8].all (fun nn => !(Instr.nopE 1 nn).wf) = true := by decide

theorem test_wf_refuses_nopF_of_assigned_bytes :
    [0x07#8, 0x0A#8, 0x15#8, 0x18#8, 0x1E#8, 0x29#8, 0x33#8, 0x55#8, 0x65#8].all (fun nn => !(Instr.nopF 1 nn).wf) =
      true := by decide

theorem test_wf_refuses_bad_rates : rateOk 0 = false ∧ rateOk 1000000001 = false := by decide

theorem test_wf_refuses_font_with_low_bits : fontOk (Config.defaultFont.set 3 #v[0xF1, 0, 0, 0, 0]) = false := by decide

theorem test_wf_refuses_params_with_a_bad_rate : { Config.defaultParams with displayHz := 0 }.wf = false := by decide

theorem test_wf_accepts_the_defaults : Config.defaultParams.wf = true := by decide

/-! ## Decoding (section 3) -/

theorem test_decode_family_0 :
    decode 0x00E0#16 = .cls ∧ decode 0x00EE#16 = .ret ∧ decode 0x0000#16 = .sys 0x000#12 ∧
    decode 0x00E1#16 = .sys 0x0E1#12 ∧ decode 0x00EF#16 = .sys 0x0EF#12 ∧ decode 0x01E0#16 = .sys 0x1E0#12 ∧
    decode 0x0FEE#16 = .sys 0xFEE#12 := by decide

theorem test_decode_families_1_to_7 :
    decode 0x1ABC#16 = .jp 0xABC#12 ∧ decode 0x2ABC#16 = .call 0xABC#12 ∧ decode 0x3A7F#16 = .seImm 0xA 0x7F#8 ∧
    decode 0x4A7F#16 = .sneImm 0xA 0x7F#8 ∧ decode 0x5AB0#16 = .seReg 0xA 0xB ∧ decode 0x5AB7#16 = .seReg 0xA 0xB ∧
    decode 0x6C12#16 = .ldImm 0xC 0x12#8 ∧ decode 0x7C12#16 = .addImm 0xC 0x12#8 := by decide

theorem test_decode_family_8 :
    decode 0x8AB0#16 = .ldReg 0xA 0xB ∧ decode 0x8AB1#16 = .orReg 0xA 0xB ∧ decode 0x8AB2#16 = .andReg 0xA 0xB ∧
    decode 0x8AB3#16 = .xorReg 0xA 0xB ∧ decode 0x8AB4#16 = .addReg 0xA 0xB ∧ decode 0x8AB5#16 = .sub 0xA 0xB ∧
    decode 0x8AB6#16 = .shr 0xA 0xB ∧ decode 0x8AB7#16 = .subn 0xA 0xB ∧ decode 0x8ABE#16 = .shl 0xA 0xB ∧
    decode 0x8AB8#16 = .nop8 0xA 0xB 0x8#4 ∧ decode 0x8ABD#16 = .nop8 0xA 0xB 0xD#4 ∧
    decode 0x8ABF#16 = .nop8 0xA 0xB 0xF#4 := by decide

theorem test_decode_families_9_to_D :
    decode 0x9AB0#16 = .sneReg 0xA 0xB ∧ decode 0x9ABF#16 = .sneReg 0xA 0xB ∧ decode 0xA123#16 = .ldI 0x123#12 ∧
    decode 0xB123#16 = .jpV0 0x123#12 ∧ decode 0xC5F0#16 = .rnd 0x5 0xF0#8 ∧ decode 0xD125#16 = .drw 0x1 0x2 0x5#4 ∧
    decode 0xD120#16 = .drw 0x1 0x2 0x0#4 := by decide

theorem test_decode_family_E :
    decode 0xE59E#16 = .skp 0x5 ∧ decode 0xE5A1#16 = .sknp 0x5 ∧ decode 0xE59F#16 = .nopE 0x5 0x9F#8 ∧
    decode 0xE5A0#16 = .nopE 0x5 0xA0#8 ∧ decode 0xE19F#16 = .nopE 0x1 0x9F#8 := by decide

theorem test_decode_family_F :
    decode 0xF307#16 = .ldVxDt 0x3 ∧ decode 0xF30A#16 = .ldVxK 0x3 ∧ decode 0xF315#16 = .ldDtVx 0x3 ∧
    decode 0xF318#16 = .ldStVx 0x3 ∧ decode 0xF31E#16 = .addI 0x3 ∧ decode 0xF329#16 = .ldF 0x3 ∧
    decode 0xF333#16 = .ldB 0x3 ∧ decode 0xF355#16 = .ldMemVx 0x3 ∧ decode 0xF365#16 = .ldVxMem 0x3 ∧
    decode 0xF308#16 = .nopF 0x3 0x08#8 ∧ decode 0xFFFF#16 = .nopF 0xF 0xFF#8 := by decide

/-- A string of fewer than two bytes is rejected by name; two bytes are taken, the first the more significant (R64). -/
theorem test_decode_bytes :
    decodeBytes [] = .error .truncated ∧ decodeBytes [0x00#8] = .error .truncated ∧
    decodeBytes [0x6A#8, 0x2B#8, 0x81#8] = .ok (.ldImm 0xA 0x2B#8, [0x81#8]) := by decide

theorem test_decode_table_word : decodeTableWord 16 0xD125 = some (.drw 0x1 0x2 0x5#4) := by decide

/-! ## Control transfer, skips and no-ops (section 4) -/

theorem test_sys_only_advances : (tick 0x0123 State.reset).pc = 0x0202#16 ∧ (tick 0x0000 State.reset).pc = 0x0202#16 := by
  decide

theorem test_ret_pops :
    let t := tick 0x00EE { State.reset with sp := 2, stack := State.reset.stack.set 1 0x0456#16 }
    t.pc = 0x0456#16 ∧ t.sp = 1 ∧ t.stack[1] = 0x0456#16 := by decide

theorem test_ret_underflow :
    let t := tick 0x00EE State.reset
    record t = (.fault, 4, 0x0200#16, 0#17) ∧ t.pc = 0x0200#16 ∧ t.sp = 0 := by decide

theorem test_jp : (tick 0x1201 State.reset).pc = 0x0201#16 := by decide

theorem test_call_at_the_top :
    let t := tick 0x2ABC { State.reset with pc := 0x0FFE#16, sp := 15 }
    t.stack[15] = 0x1000#16 ∧ t.sp = 16 ∧ t.pc = 0x0ABC#16 := by decide

theorem test_call_overflow :
    let t := tick 0x2ABC { State.reset with sp := 16 }
    record t = (.fault, 3, 0x0200#16, 0#17) ∧ t.pc = 0x0200#16 ∧ t.sp = 16 := by decide

theorem test_jp_v0 : (tick 0xBFFF (regs [(0, 0xFF#8)])).pc = 0x10FE#16 := by decide

theorem test_jp_v0_ignores_the_digit : (tick 0xB123 (regs [(1, 0x55#8)])).pc = 0x0123#16 := by decide

theorem test_se_imm :
    (tick 0x3100 State.reset).pc = 0x0204#16 ∧ (tick 0x3100 (regs [(1, 0x01#8)])).pc = 0x0202#16 := by decide

theorem test_sne_imm :
    (tick 0x4210 (regs [(2, 0x10#8)])).pc = 0x0202#16 ∧ (tick 0x4211 (regs [(2, 0x10#8)])).pc = 0x0204#16 := by decide

theorem test_se_reg :
    (tick 0x5347 (regs [(3, 0x01#8), (4, 0x01#8)])).pc = 0x0204#16 ∧
    (tick 0x5340 (regs [(3, 0x01#8), (4, 0x02#8)])).pc = 0x0202#16 := by decide

theorem test_sne_reg :
    (tick 0x934F (regs [(3, 0x01#8), (4, 0x02#8)])).pc = 0x0204#16 ∧
    (tick 0x9340 (regs [(3, 0x02#8), (4, 0x02#8)])).pc = 0x0202#16 := by decide

theorem test_nops_advance :
    (tick 0x8AB9 State.reset).pc = 0x0202#16 ∧ (tick 0xE19F State.reset).pc = 0x0202#16 ∧
    (tick 0xF175 State.reset).pc = 0x0202#16 := by decide

/-! ## Registers and arithmetic (section 5) -/

theorem test_ld_imm : (tick 0x6A2B State.reset).v[0xA] = 0x2B#8 := by decide

theorem test_add_imm_wraps :
    let t := tick 0x7101 (regs [(1, 0xFF#8)])
    t.v[1] = 0x00#8 ∧ t.v[15] = 0x00#8 := by decide

theorem test_ld_reg : (tick 0x8120 (regs [(2, 0x99#8)])).v[1] = 0x99#8 := by decide

theorem test_or_keeps_vf :
    let t := tick 0x8121 (regs [(1, 0xF0#8), (2, 0x0F#8), (15, 0x01#8)])
    t.v[1] = 0xFF#8 ∧ t.v[15] = 0x01#8 := by decide

theorem test_and : (tick 0x8122 (regs [(1, 0xF3#8), (2, 0x3C#8)])).v[1] = 0x30#8 := by decide

theorem test_xor : (tick 0x8123 (regs [(1, 0xFF#8), (2, 0x0F#8)])).v[1] = 0xF0#8 := by decide

theorem test_add_carry :
    let t := tick 0x8124 (regs [(1, 0xFF#8), (2, 0x01#8)])
    t.v[1] = 0x00#8 ∧ t.v[15] = 0x01#8 := by decide

theorem test_add_into_vf : (tick 0x8FF4 (regs [(15, 0x90#8)])).v[15] = 0x20#8 := by decide

theorem test_sub_result_sign :
    let t := tick 0x8125 (regs [(1, 0x01#8), (2, 0xFF#8)])
    t.v[1] = 0x02#8 ∧ t.v[15] = 0x01#8 := by decide

theorem test_sub_into_vf :
    (tick 0x8F15 (regs [(15, 0x05#8), (1, 0x03#8)])).v[15] = 0x01#8 ∧
    (tick 0x8F15 { regs [(15, 0x05#8), (1, 0x03#8)] with
      params := { Config.defaultParams with subFlag := .noBorrow } }).v[15] = 0x02#8 := by decide

theorem test_subn_no_borrow :
    let t := tick 0x8127 (regs [(1, 0x01#8), (2, 0xFF#8)])
    t.v[1] = 0xFE#8 ∧ t.v[15] = 0x01#8 := by decide

theorem test_subn_into_vf :
    (tick 0x8F17 (regs [(15, 0x03#8), (1, 0x05#8)])).v[15] = 0x02#8 ∧
    (tick 0x8F17 { regs [(15, 0x03#8), (1, 0x05#8)] with
      params := { Config.defaultParams with subnFlag := .resultSign } }).v[15] = 0x01#8 := by decide

theorem test_shr_reads_vy :
    let t := tick 0x8126 (regs [(2, 0x01#8), (1, 0xAA#8)])
    t.v[1] = 0x00#8 ∧ t.v[15] = 0x01#8 ∧ t.v[2] = 0x01#8 := by decide

theorem test_shr_into_vf : (tick 0x8F16 (regs [(1, 0x05#8)])).v[15] = 0x02#8 := by decide

theorem test_shl_reads_vy :
    let t := tick 0x812E (regs [(2, 0x7F#8)])
    t.v[1] = 0xFE#8 ∧ t.v[15] = 0x00#8 := by decide

theorem test_shl_into_vf : (tick 0x8F1E (regs [(1, 0xC1#8)])).v[15] = 0x82#8 := by decide

theorem test_rnd_masks : (tick 0xC30F { State.reset with inputs := [{ quiet with rnd := 0xA7#8 }] }).v[3] = 0x07#8 := by
  decide

/-! ## Display (section 6) -/

/-- DR14. -/
theorem test_cls :
    let s := { regs [(15, 0x01#8)] with fb := setPixel (setPixel State.reset.fb 0 0 true) 63 31 true }
    lit s = 2 ∧ lit (tick 0x00E0 s) = 0 ∧ (tick 0x00E0 s).v[15] = 0x01#8 := by decide

/-- DR2: a sprite over the right and the lower edge, each pixel wrapping on its own. -/
theorem test_drw_wraps :
    let t := tick 0xD125 (regs [(1, 0x3E#8), (2, 0x1E#8)])
    row t 30 = [0, 1, 62, 63] ∧ row t 31 = [1, 62] ∧ row t 0 = [1, 62] ∧ row t 1 = [1, 62] ∧
    row t 2 = [0, 1, 62, 63] ∧ lit t = 14 ∧ t.v[15] = 0x00#8 := by decide

/-- DR3: a collision. -/
theorem test_drw_collides :
    let s := bytes { regs [] with idx := 0x0300#16, fb := setPixel State.reset.fb 0 0 true } 0x300 [0xFF#8]
    let t := tick 0xD121 s
    row t 0 = [1, 2, 3, 4, 5, 6, 7] ∧ t.v[15] = 0x01#8 := by decide

/-! ## Keypad and timers (section 7) -/

theorem test_skp :
    let s := regs [(5, 0x0A#8)]
    (tick 0xE59E (keys s 0x0400#16)).pc = 0x0204#16 ∧ (tick 0xE59E (keys s 0xFBFF#16)).pc = 0x0202#16 := by decide

theorem test_skp_bad_index :
    let t := tick 0xE59E (keys (regs [(5, 0x10#8)]) 0xFFFF#16)
    record t = (.fault, 5, 0x0200#16, 0x10#17) ∧ t.pc = 0x0200#16 := by decide

theorem test_sknp :
    let s := regs [(5, 0x0A#8)]
    (tick 0xE5A1 (keys s 0x0000#16)).pc = 0x0204#16 ∧ (tick 0xE5A1 (keys s 0x0400#16)).pc = 0x0202#16 := by decide

theorem test_sknp_bad_index : record (tick 0xE5A1 (regs [(5, 0xFF#8)])) = (.fault, 5, 0x0200#16, 0xFF#17) := by decide

theorem test_ld_vx_dt : (tick 0xF307 { State.reset with dt := 0x2A#8 }).v[3] = 0x2A#8 := by decide

theorem test_ld_dt_vx :
    let t := tick 0xF015 { regs [(0, 0x0A#8)] with dt := 0x03#8, st := 0x07#8 }
    t.dt = 0x0A#8 ∧ t.st = 0x07#8 := by decide

theorem test_ld_st_vx :
    let t := tick 0xF418 { regs [(4, 0x03#8)] with dt := 0x07#8 }
    t.st = 0x03#8 ∧ t.dt = 0x07#8 ∧ t.buzz = false := by decide

/-- K1, tick 3: of two pressed keys the lowest is noted. -/
theorem test_key_wait_begins :
    let t := tick 0xF10A (keys State.reset 0x0088#16)
    t.pc = 0x0200#16 ∧ t.kwWaiting = true ∧ t.kwReg = 1 ∧ t.kwKey = 3#4 := by decide

/-- K1, tick 5: the noted key is released. -/
theorem test_key_wait_ends :
    let t := tick 0xF10A (keys { State.reset with kwWaiting := true, kwReg := 1, kwKey := 3#4 } 0x0080#16)
    t.pc = 0x0202#16 ∧ t.kwWaiting = false ∧ t.v[1] = 0x03#8 := by decide

/-! ## Index register and memory (section 8) -/

theorem test_ld_i : (tick 0xAFFF State.reset).idx = 0x0FFF#16 := by decide

theorem test_add_i_wraps :
    let t := tick 0xF21E { regs [(2, 0x01#8), (15, 0x07#8)] with idx := 0xFFFF#16 }
    t.idx = 0x0000#16 ∧ t.v[15] = 0x07#8 := by decide

theorem test_ld_f :
    (tick 0xF029 (regs [(0, 0x0A#8)])).idx = 0x0032#16 ∧ (tick 0xF029 (regs [(0, 0xFF#8)])).idx = 0x04FB#16 := by decide

theorem test_ld_b :
    let t := tick 0xF033 { regs [(0, 0xEA#8)] with idx := 0x0300#16 }
    t.readBytes 0x300 3 = [0x02#8, 0x03#8, 0x04#8] ∧ t.idx = 0x0300#16 := by decide

theorem test_ld_b_leaves_memory :
    let t := tick 0xF033 { regs [(0, 0x7B#8)] with idx := 0x0FFE#16 }
    record t = (.fault, 2, 0x0200#16, 0x1000#17) ∧ t.readBytes 0xFFE 2 = [0x00#8, 0x00#8] := by decide

theorem test_ld_mem_vx :
    let t := tick 0xF155 { regs [(0, 0x6B#8), (1, 0x77#8), (2, 0x55#8)] with idx := 0x0208#16 }
    t.readBytes 0x208 3 = [0x6B#8, 0x77#8, 0x00#8] ∧ t.idx = 0x020A#16 := by decide

theorem test_ld_mem_vx_over_the_font :
    let t := tick 0xF155 (regs [(0, 0xAA#8), (1, 0xBB#8)])
    t.readBytes 0x000 5 = [0xAA#8, 0xBB#8, 0x90#8, 0x90#8, 0xF0#8] ∧ t.idx = 0x0002#16 := by decide

theorem test_ld_vx_mem :
    let t := tick 0xF265 (bytes { regs [(3, 0x44#8)] with idx := 0x0300#16 } 0x300 [0x02#8, 0x03#8, 0x04#8, 0x09#8])
    t.v[0] = 0x02#8 ∧ t.v[1] = 0x03#8 ∧ t.v[2] = 0x04#8 ∧ t.v[3] = 0x44#8 ∧ t.idx = 0x0303#16 := by decide

theorem test_ld_vx_mem_leaves_memory :
    let t := tick 0xF165 { regs [(0, 0x01#8), (1, 0x02#8)] with idx := 0x0FFF#16 }
    record t = (.fault, 2, 0x0200#16, 0x1000#17) ∧ t.v[0] = 0x01#8 ∧ t.v[1] = 0x02#8 ∧ t.idx = 0x0FFF#16 := by decide

/-! ## Fetch, display ticks, scheduler and reset (sections 9, 10 and 11) -/

theorem test_fetch_outside_memory :
    let tickAt := fun w : Word => { State.reset with pc := w, agenda := [.cpuTick] }
    record (nextOr State.reset (step (tickAt 0x0FFF#16))) = (.fault, 1, 0x0FFF#16, 0x1000#17) ∧
    record (nextOr State.reset (step (tickAt 0x10FE#16))) = (.fault, 1, 0x10FE#16, 0x10FE#17) := by decide

theorem test_fetch_at_an_odd_pc :
    let t := tick 0x6123 { State.reset with pc := 0x0201#16 }
    t.v[1] = 0x23#8 ∧ t.pc = 0x0203#16 := by decide

/-- TD1, the second and the third display tick. -/
theorem test_display_tick :
    let s := { State.reset with dt := 0x02#8, st := 0x02#8, inputs := [quiet] }
    let t := display s
    let u := display { s with dt := 0x01#8, st := 0x01#8 }
    (t.dt, t.st, t.render, t.buzz) = (0x01#8, 0x01#8, true, true) ∧
    (u.dt, u.st, u.render, u.buzz) = (0x00#8, 0x00#8, true, false) := by decide

theorem test_render_failure :
    let t := display { State.reset with dt := 0x05#8, inputs := [{ quiet with renderFail := true }] }
    record t = (.stopped, 6, 0x0200#16, 0#17) ∧ t.dt = 0x04#8 ∧ t.buzz = false := by decide

theorem test_buzz_failure :
    let t := display { State.reset with st := 0x05#8, inputs := [{ quiet with buzzFail := true }] }
    record t = (.stopped, 6, 0x0200#16, 0#17) ∧ t.st = 0x04#8 ∧ t.render = true ∧ t.buzz = true := by decide

/-- The pass of 16666666 ns after one of 16666660 ns has one display tick due and no CPU tick. -/
theorem test_pass_order :
    State.nextAction { State.reset with
      cpuMarker := 16666660#64, timeNs := 16666660#64, agenda := [.pass 16666666#64] } = .displayTick ∧
    State.nextAction { State.reset with agenda := [.pass 1666665#64] } = .passDone ∧
    State.nextAction { State.reset with agenda := [.pass 1666666#64] } = .cpuTick := by decide

/-- `Start` of R229, from a state with other markers. -/
theorem test_start_sets_both_markers :
    let s := { State.reset with cpuMarker := 3#64, dispMarker := 4#64, timeNs := 5#64, agenda := [.start 9#64] }
    step s = .next { State.reset with cpuMarker := 9#64, dispMarker := 9#64, timeNs := 9#64 } := rfl

theorem test_reset_after_a_fault :
    let s := { regs [(3, 0x44#8)] with status := .fault, faultCause := .stackOverflow, sp := 16, idx := 0x0FFF#16 }
    let t := nextOr s (step { s with agenda := [.reset [0x12#8, 0x00#8]] })
    t = { State.reset with mem := [(0x200, 0x12#8)] } ∧
    t.readBytes 0x000 5 = [0xF0#8, 0x90#8, 0x90#8, 0x90#8, 0xF0#8] ∧
    t.readBytes 0x04B 6 = [0xF0#8, 0x80#8, 0xF0#8, 0x80#8, 0x80#8, 0x00#8] := by decide

/-- The word of a table row is placed at the PC, a CPU tick comes next, and nothing else changes. -/
theorem test_with_fetch_word :
    State.reset.withFetchWord 16 0x6A2B =
      { State.reset with mem := [(0x200, 0x6A#8), (0x201, 0x2B#8)], agenda := [.cpuTick] } := by decide

/-! ## Witnesses: each statement's hypotheses are met, each of its clauses by a value at its boundary -/

/-- For the statements whose hypothesis is that an instruction answers a next state: one that runs, one that faults. -/
theorem witness_of_a_next_state :
    (∃ t, exec (.ldStVx 3) (regs [(3, 0x44#8)]) = .next t) ∧ ∃ t, exec .ret State.reset = .next t :=
  ⟨⟨_, rfl⟩, ⟨_, rfl⟩⟩

theorem witness_DecodeOfEncodeIsTheInstruction :
    (Instr.sys 0x0E1#12).wf = true ∧ (Instr.nop8 0xA 0xB 0x8#4).wf = true ∧ (Instr.nopE 0x1 0x9F#8).wf = true ∧
    (Instr.nopF 0x3 0x75#8).wf = true := by decide

theorem witness_NoOpsOnlyAdvancePc :
    NoOpWord 0x00E1#16 ∧ NoOpWord 0x8AB8#16 ∧ NoOpWord 0xE19F#16 ∧ NoOpWord 0xF175#16 := by
  unfold NoOpWord; decide

theorem witness_RetPopsThePc :
    ({ State.reset with sp := 1 } : State).sp.val = (0 : Fin 16).val + 1 ∧
    ({ State.reset with sp := 16 } : State).sp.val = (15 : Fin 16).val + 1 := by decide

theorem witness_CallPushesAndJumps :
    State.reset.sp.val = (0 : Fin 16).val ∧ ({ State.reset with sp := 15 } : State).sp.val = (15 : Fin 16).val := by
  decide

theorem witness_StackFaultsChangeNothingElse :
    State.reset.sp.val = 0 ∧ ({ State.reset with sp := 16 } : State).sp.val = 16 := by decide

theorem witness_RetUndoesCall : State.reset.sp.val < 16 ∧ ({ State.reset with sp := 15 } : State).sp.val < 16 := by
  decide

theorem witness_FlagModesAgreeOnSmallDifferences :
    (1 : Reg) ≠ 15 ∧
    (∃ t, exec (.sub 1 2) { State.reset with params := { State.reset.params with subFlag := .resultSign } } = .next t) ∧
    ∃ u, exec (.sub 1 2) { State.reset with params := { State.reset.params with subFlag := .noBorrow } } = .next u :=
  ⟨by decide, ⟨_, rfl⟩, ⟨_, rfl⟩⟩

theorem witness_DrawTogglesExactlyTheSprite :
    let point := fun w : Word => { State.reset with idx := w }
    (0x0#4 = 0#4 ∨ (point 0xFFFF#16).idx.toNat + (0x0#4).toNat - 1 ≤ 0x0FFF) ∧
    (0x1#4 = 0#4 ∨ (point 0x0FFF#16).idx.toNat + (0x1#4).toNat - 1 ≤ 0x0FFF) ∧
    (0xF#4 = 0#4 ∨ (point 0x0FF1#16).idx.toNat + (0xF#4).toNat - 1 ≤ 0x0FFF) := by decide

/-- A sprite over a pixel that is on: the first draw collides; and one over none, whose second draw collides. -/
theorem witness_DrawingTwiceRestoresTheScreen :
    let s := regs [(1, 0x3E#8), (2, 0x1E#8)]
    let t := nextOr s (exec (.drw 1 2 5#4) s)
    let u := nextOr s (exec (.drw 1 2 5#4) t)
    exec (.drw 1 2 5#4) s = .next t ∧ exec (.drw 1 2 5#4) t = .next u ∧
    (State.reset.idx.toNat + (5#4).toNat - 1 ≤ 0x0FFF) ∧ t.v[1] = s.v[1] ∧ t.v[2] = s.v[2] ∧
    t.v[15] = 0x00#8 ∧ u.v[15] = 0x01#8 :=
  ⟨rfl, rfl, by decide⟩

theorem witness_KeySkipsReadTheSampledKey :
    (regs [(5, 0x0F#8)]).v[(5 : Reg)].toNat ≤ 15 ∧ (regs [(5, 0x00#8)]).v[(5 : Reg)].toNat ≤ 15 := by decide

theorem witness_KeyIndexAbove15Faults : 15 < (regs [(5, 0x10#8)]).v[(5 : Reg)].toNat := by decide

theorem witness_KeyWaitPolls :
    let idle := fun k : BitVec 16 => { State.reset with ports := { quiet with keys := k } }
    let waiting := fun k : BitVec 16 => { idle k with kwWaiting := true, kwReg := 1, kwKey := 3#4 }
    ((idle 0#16).kwWaiting = false ∧ (idle 0#16).ports.keys = 0#16) ∧
    ((idle 0x8000#16).kwWaiting = false ∧ LowestPressed (idle 0x8000#16).ports.keys 15) ∧
    ((idle 0x0089#16).kwWaiting = false ∧ LowestPressed (idle 0x0089#16).ports.keys 0) ∧
    ((waiting 0x0008#16).kwWaiting = true ∧
      (waiting 0x0008#16).ports.keys.getLsbD (waiting 0x0008#16).kwKey.toNat = true) ∧
    (waiting 0x0080#16).kwWaiting = true ∧
      (waiting 0x0080#16).ports.keys.getLsbD (waiting 0x0080#16).kwKey.toNat = false := by
  unfold LowestPressed; decide

/-- A key wait at 0x200 that sees key 7 at its first tick and its release at the second. -/
def waitingProgram : State :=
  { State.reset.withFetchWord 16 0xF10A with
    agenda := [.cpuTick, .cpuTick], inputs := [{ quiet with keys := 0x0080#16 }, quiet] }

theorem witness_KeyWaitEndsTwoTicksAfterAPress :
    waitingProgram.status = .running ∧ waitingProgram.agenda = [.cpuTick, .cpuTick] ∧
    waitingProgram.inputs = [{ quiet with keys := 0x0080#16 }, quiet] ∧ waitingProgram.pc.toNat ≤ 0x0FFE ∧
    decode (waitingProgram.readByte waitingProgram.pc.toNat ++
      waitingProgram.readByte (waitingProgram.pc.toNat + 1)) = .ldVxK 1 ∧
    waitingProgram.kwWaiting = false ∧ LowestPressed 0x0080#16 7 ∧ quiet.keys.getLsbD 7 = false := by
  unfold LowestPressed; decide

theorem witness_DecimalDigitsAreStored : ({ State.reset with idx := 0x0FFD#16 } : State).idx.toNat + 2 ≤ 0x0FFF := by
  decide

/-- For the statements about storing and loading registers: sixteen registers at the top of memory, and one. -/
theorem witness_of_a_block_in_memory :
    ({ State.reset with idx := 0x0FF0#16 } : State).idx.toNat + (15 : Reg).val ≤ 0x0FFF ∧
    ({ State.reset with idx := 0x0FFF#16 } : State).idx.toNat + (0 : Reg).val ≤ 0x0FFF := by decide

theorem witness_DataAccessOutsideMemoryFaults :
    let point := fun w : Word => { State.reset with idx := w }
    (0x2#4 ≠ 0#4 ∧ 0x0FFF < (point 0x0FFF#16).idx.toNat + (0x2#4).toNat - 1) ∧
    (0x1#4 ≠ 0#4 ∧ 0x0FFF < (point 0x1000#16).idx.toNat + (0x1#4).toNat - 1) ∧
    0x0FFF < (point 0x0FFE#16).idx.toNat + 2 ∧ 0x0FFF < (point 0xFFFF#16).idx.toNat + 2 ∧
    0x0FFF < (point 0x0FF1#16).idx.toNat + (15 : Reg).val ∧
    0x0FFF < (point 0x1000#16).idx.toNat + (0 : Reg).val := by decide

theorem witness_StoreIsSeenByTheNextFetch :
    let s := { State.reset with idx := 0x0202#16 }
    1 ≤ (1 : Reg).val ∧ s.idx.toNat = s.pc.toNat + 2 ∧ s.idx.toNat + (1 : Reg).val ≤ 0x0FFF := by decide

theorem witness_RegistersChangeOnlyAsNamed :
    (∃ t, exec (.addReg 1 2) State.reset = .next t) ∧ ¬ NamesDestination (.addReg 1 2) State.reset 3 ∧
    ((3 : Reg) = 15 → ¬ WritesFlag (.addReg 1 2)) ∧
    (∃ t, exec (.orReg 1 2) State.reset = .next t) ∧ ¬ NamesDestination (.orReg 1 2) State.reset 15 ∧
    ((15 : Reg) = 15 → ¬ WritesFlag (.orReg 1 2)) :=
  ⟨⟨_, rfl⟩, show ¬ (3 : Reg) = 1 by decide, fun h => absurd h (by decide), ⟨_, rfl⟩, show ¬ (15 : Reg) = 1 by decide,
    fun _ h => h⟩

/-- An instruction that reads no port, with other ports; one that reads the keys, with another random byte. -/
theorem witness_PortsAreReadByTheirInstructionsAlone :
    (∃ t, exec .cls State.reset = .next t) ∧
    (((∀ x, Instr.cls ≠ .skp x) ∧ (∀ x, Instr.cls ≠ .sknp x) ∧ ∀ x, Instr.cls ≠ .ldVxK x) ∧
      ∀ x nn, Instr.cls ≠ .rnd x nn) ∧
    (∃ t, exec (.skp 5) State.reset = .next t) ∧ { quiet with rnd := 0xFF#8 }.keys = State.reset.ports.keys ∧
    ∀ x nn, Instr.skp 5 ≠ .rnd x nn :=
  ⟨⟨_, rfl⟩, ⟨⟨nofun, nofun, nofun⟩, nofun⟩, ⟨_, rfl⟩, rfl, nofun⟩

/-- The first instruction of memory with a `DRW` at 0x200, and at the last place a fetch reaches. -/
theorem witness_StepRunsTheDecodedInstruction :
    let s := State.reset.withFetchWord 16 0xD125
    let t := { State.reset with pc := 0x0FFE#16 }.withFetchWord 16 0xF10A
    (s.nextAction = .cpuTick ∧ s.status = .running ∧ s.pc.toNat ≤ 0x0FFE ∧
      decode (s.readByte s.pc.toNat ++ s.readByte (s.pc.toNat + 1)) = .drw 1 2 5#4) ∧
    t.nextAction = .cpuTick ∧ t.status = .running ∧ t.pc.toNat ≤ 0x0FFE ∧
      decode (t.readByte t.pc.toNat ++ t.readByte (t.pc.toNat + 1)) = .ldVxK 1 := by decide

theorem witness_FetchOutsideMemoryFaults :
    let point := fun w : Word => { State.reset with pc := w, agenda := [.cpuTick] }
    ((point 0x0FFF#16).nextAction = .cpuTick ∧ (point 0x0FFF#16).status = .running ∧ 0x0FFE < (point 0x0FFF#16).pc.toNat) ∧
    (point 0x1000#16).nextAction = .cpuTick ∧ (point 0x1000#16).status = .running ∧
      0x0FFE < (point 0x1000#16).pc.toNat := by decide

/-- A tick of each kind as an event; the state after reset, with no event in store. -/
theorem witness_TickSamplesThePortsOnce :
    let s := { State.reset with inputs := [quiet], agenda := [.displayTick] }
    let t := { State.reset with inputs := [quiet], agenda := [.cpuTick] }
    (s.inputs = quiet :: [] ∧ s.agenda = .displayTick :: [] ∧ s.nextAction = .displayTick ∧ ∃ s', step s = .next s') ∧
    (t.inputs = quiet :: [] ∧ t.agenda = .cpuTick :: [] ∧ t.nextAction = .cpuTick ∧ ∃ t', step t = .next t') ∧
    State.reset.agenda = [] :=
  ⟨⟨rfl, rfl, rfl, _, rfl⟩, ⟨rfl, rfl, rfl, _, rfl⟩, rfl⟩

theorem witness_StepRefusesOnlyHostEvents :
    step { State.reset with timeNs := 2#64, agenda := [.pass 1#64] } = .refused .timeBackwards ∧
    step { State.reset with timeNs := 2#64, agenda := [.start 1#64] } = .refused .timeBackwards ∧
    step { State.reset with params := { Config.defaultParams with cpuHz := 0 }, agenda := [.pass 1#64] } =
      .refused .rateOutOfBounds :=
  ⟨rfl, rfl, rfl⟩

/-- A tick, a pass and a start in a run that has ended. -/
theorem witness_EndedRunIsAbsorbing :
    let s := { State.reset with
      status := .fault, faultCause := .stackUnderflow, inputs := [quiet], agenda := [.cpuTick] }
    let t := { s with agenda := [.pass 1666666#64] }
    let u := { s with status := .stopped, agenda := [.start 5#64] }
    (s.status ≠ .running ∧ s.nextAction = .cpuTick ∧ ∃ s', step s = .next s') ∧
    (t.status ≠ .running ∧ t.nextAction = .passDone ∧ ∃ t', step t = .next t') ∧
    u.status ≠ .running ∧ u.nextAction = .start ∧ ∃ u', step u = .next u' :=
  ⟨⟨by decide, rfl, _, rfl⟩, ⟨by decide, rfl, _, rfl⟩, by decide, rfl, _, rfl⟩

/-- A sound timer of 2 with nothing failing; a sound timer of 1 with a failing sound, which is not looked at. -/
theorem witness_DisplayTickCountsAndRenders :
    let s := { State.reset with st := 0x02#8, agenda := [.displayTick], inputs := [quiet] }
    let t := { State.reset with st := 0x01#8, agenda := [.displayTick], inputs := [{ quiet with buzzFail := true }] }
    (s.nextAction = .displayTick ∧ s.status = .running ∧ s.enterTick.ports.renderFail = false ∧
      s.enterTick.ports.buzzFail = false) ∧
    t.nextAction = .displayTick ∧ t.status = .running ∧ t.enterTick.ports.renderFail = false ∧ t.st.toNat ≤ 1 := by
  decide

theorem witness_CollaboratorFailureStopsTheRun :
    let s := { State.reset with agenda := [.displayTick], inputs := [{ quiet with renderFail := true }] }
    let t := { State.reset with st := 0x02#8, agenda := [.displayTick], inputs := [{ quiet with buzzFail := true }] }
    (s.nextAction = .displayTick ∧ s.status = .running ∧ s.enterTick.ports.renderFail = true) ∧
    t.nextAction = .displayTick ∧ t.status = .running ∧ 1 < t.st.toNat ∧ t.enterTick.ports.buzzFail = true := by decide

theorem witness_TimersReachZeroAndStay :
    let s := { State.reset with
      dt := 0x03#8, agenda := List.replicate 4 .displayTick, inputs := [quiet, quiet, quiet, quiet] }
    s.status = .running ∧ s.agenda = List.replicate 4 .displayTick ∧ s.inputs.length = 4 ∧
    ∀ p ∈ s.inputs, p.renderFail = false ∧ p.buzzFail = false := by decide

/-- A CPU tick, a reset and the end of a pass. -/
theorem witness_OnlyDisplayTicksRaiseStrobes :
    ((∃ t, step { State.reset with agenda := [.cpuTick] } = .next t) ∧
      State.nextAction { State.reset with agenda := [.cpuTick] } ≠ .displayTick) ∧
    ((∃ t, step { State.reset with agenda := [.reset []] } = .next t) ∧
      State.nextAction { State.reset with agenda := [.reset []] } ≠ .displayTick) ∧
    (∃ t, step { State.reset with agenda := [.pass 5#64] } = .next t) ∧
      State.nextAction { State.reset with agenda := [.pass 5#64] } ≠ .displayTick :=
  ⟨⟨⟨_, rfl⟩, by decide⟩, ⟨⟨_, rfl⟩, by decide⟩, ⟨_, rfl⟩, by decide⟩

/-- The four clauses: 1666666 ns after both markers; 16666666 ns after the display marker and 6 ns after the CPU
marker; 1666665 ns after both; a start at the time it is. -/
theorem witness_PassRunsDueTicksInOrder :
    let s := { State.reset with agenda := [.pass 1666666#64] }
    let t := { State.reset with cpuMarker := 16666660#64, timeNs := 16666660#64, agenda := [.pass 16666666#64] }
    let u := { State.reset with agenda := [.pass 1666665#64] }
    let w := { State.reset with timeNs := 7#64, agenda := [.start 7#64] }
    (s.status = .running ∧ rateOk s.params.cpuHz = true ∧ rateOk s.params.displayHz = true ∧
      s.timeNs.toNat ≤ (1666666#64).toNat ∧
      s.cpuMarker.toNat + 1000000000 / s.params.cpuHz ≤ (1666666#64).toNat) ∧
    (t.status = .running ∧ rateOk t.params.cpuHz = true ∧ rateOk t.params.displayHz = true ∧
      t.timeNs.toNat ≤ (16666666#64).toNat ∧
      (16666666#64).toNat < t.cpuMarker.toNat + 1000000000 / t.params.cpuHz ∧
      t.dispMarker.toNat + 1000000000 / t.params.displayHz ≤ (16666666#64).toNat) ∧
    (u.status = .running ∧ rateOk u.params.cpuHz = true ∧ rateOk u.params.displayHz = true ∧
      u.timeNs.toNat ≤ (1666665#64).toNat ∧
      (1666665#64).toNat < u.cpuMarker.toNat + 1000000000 / u.params.cpuHz ∧
      (1666665#64).toNat < u.dispMarker.toNat + 1000000000 / u.params.displayHz) ∧
    w.status = .running ∧ rateOk w.params.cpuHz = true ∧ rateOk w.params.displayHz = true ∧
      w.timeNs.toNat ≤ (7#64).toNat := by decide

/-- A pass with one CPU tick due: that tick, and then the end of the pass. -/
theorem witness_PassRunsAsManyTicksAsFit :
    let s := { State.reset with agenda := [.pass 1666666#64], inputs := [quiet] }
    let t := nextOr s (Sys2Proof.core.run 2 s)
    Sys2Proof.core.run 2 s = .next t ∧ s.cpuMarker.toNat ≤ (1666666#64).toNat ∧
    s.dispMarker.toNat ≤ (1666666#64).toNat ∧ t.agenda = [] ∧ t.status = .running :=
  ⟨rfl, by decide⟩

theorem witness_ResetLoadsTheRom :
    { State.reset with agenda := [.reset (List.replicate 3584 0xFF#8)] }.agenda =
      .reset (List.replicate 3584 0xFF#8) :: [] ∧ (List.replicate 3584 0xFF#8).length ≤ 3584 :=
  ⟨rfl, by rw [List.length_replicate]⟩

theorem witness_LongerRomIsRefused :
    { State.reset with agenda := [.reset (List.replicate 3585 0xFF#8)] }.agenda =
      .reset (List.replicate 3585 0xFF#8) :: [] ∧ 3584 < (List.replicate 3585 0xFF#8).length :=
  ⟨rfl, by rw [List.length_replicate]; decide⟩

/-- A sound state in the middle of a key wait, with a font byte stored over, a stack in use and a step that runs. -/
def soundState : State :=
  bytes { State.reset.withFetchWord 16 0xF10A with
    kwWaiting := true, kwReg := 1, kwKey := 7#4, sp := 1, stack := State.reset.stack.set 0 0x1000#16,
    inputs := [quiet] } 0x003 [0xAA#8]

/-- For the three invariants: they hold of that state, and it steps. -/
theorem witness_of_the_invariants : soundState.Inv ∧ ∃ t, step soundState = .next t :=
  ⟨⟨by decide, by decide, by decide, by decide, by decide, by decide⟩, _, rfl⟩

end Sys2Proof.Tests
end

section
/-! PROOF. The no-ops of spec/30_encoding.md R99 and spec/40_flow.md R120, R129: which words decode to them, and that
they do nothing but the common advance. -/

namespace Sys2Proof

/-! ## The words that decode to a general row -/

variable {w : Word}

theorem decode_eq_decode0 (hop : opField w = 0x0#4) : decode w = decode0 w := by unfold decode; rw [hop]; rfl

theorem decode_eq_decode8 (hop : opField w = 0x8#4) : decode w = decode8 w := by unfold decode; rw [hop]; rfl

theorem decode_eq_decodeE (hop : opField w = 0xE#4) : decode w = decodeE w := by unfold decode; rw [hop]; rfl

theorem decode_eq_decodeF (hop : opField w = 0xF#4) : decode w = decodeF w := by unfold decode; rw [hop]; rfl

/-- Family 0: a word other than the two exact ones (R95). -/
theorem decode_eq_sys (hop : opField w = 0x0#4) (hcls : w ≠ 0x00E0#16) (hret : w ≠ 0x00EE#16) :
    decode w = .sys (nnnField w) := by
  rw [decode_eq_decode0 hop, decode0, if_neg hcls, if_neg hret]

/-- Family 8: a low nibble that no row has (R97). -/
theorem decode_eq_nop8 (hop : opField w = 0x8#4)
    (hn : nField w ∈ [0x8#4, 0x9#4, 0xA#4, 0xB#4, 0xC#4, 0xD#4, 0xF#4]) :
    decode w = .nop8 (xField w) (yField w) (nField w) := by
  rw [decode_eq_decode8 hop, decode8]
  split
  case h_10 => rfl
  all_goals simp_all -- a row of its own, which the hypothesis excludes

/-- Family E: a low byte that is neither of the two rows' (R98). -/
theorem decode_eq_nopE (hop : opField w = 0xE#4) (hnn : nnField w ∉ [0x9E#8, 0xA1#8]) :
    decode w = .nopE (xField w) (nnField w) := by
  rw [decode_eq_decodeE hop, decodeE]
  split
  case h_3 => rfl
  all_goals simp_all -- a row of its own, which the hypothesis excludes

/-- Family F: a low byte that is none of the nine rows' (R104). -/
theorem decode_eq_nopF (hop : opField w = 0xF#4)
    (hnn : nnField w ∉ [0x07#8, 0x0A#8, 0x15#8, 0x18#8, 0x1E#8, 0x29#8, 0x33#8, 0x55#8, 0x65#8]) :
    decode w = .nopF (xField w) (nnField w) := by
  rw [decode_eq_decodeF hop, decodeF]
  split
  case h_10 => rfl
  all_goals simp_all -- a row of its own, which the hypothesis excludes

end Sys2Proof

namespace Sys2Proof.Machine

/-! ## What a no-op does -/

/-- The common advance changes the PC alone. -/
theorem State.advance_eq (s : State) : s.advance = { s with pc := s.pc + 2#16 } := rfl

theorem exec_sys (nnn : Addr) (s : State) : exec (.sys nnn) s = .next s.advance := rfl

theorem exec_nop8 (x y : Reg) (n : Nibble) (s : State) : exec (.nop8 x y n) s = .next s.advance := rfl

theorem exec_nopE (x : Reg) (nn : Byte) (s : State) : exec (.nopE x nn) s = .next s.advance := rfl

theorem exec_nopF (x : Reg) (nn : Byte) (s : State) : exec (.nopF x nn) s = .next s.advance := rfl

open Sys2Proof.Claims

/-- A word of R99's list runs as the common advance: each of its four families decodes to the family's no-op. -/
theorem exec_decode_of_noOpWord {w : Word} (h : NoOpWord w) (s : State) : exec (decode w) s = .next s.advance := by
  obtain ⟨hop, hcls, hret⟩ | ⟨hop, hn⟩ | ⟨hop, hnn⟩ | ⟨hop, hnn⟩ := h
  · rw [decode_eq_sys hop hcls hret, exec_sys]
  · rw [decode_eq_nop8 hop hn, exec_nop8]
  · rw [decode_eq_nopE hop hnn, exec_nopE]
  · rw [decode_eq_nopF hop hnn, exec_nopF]

/-- Settles O6: a word of the list decodes to a no-op of its family, and each no-op is the common advance alone. -/
theorem noOpsOnlyAdvancePc : Obligations.NoOpsOnlyAdvancePc := by
  unfold Obligations.NoOpsOnlyAdvancePc
  simp only [← State.advance_eq]
  exact ⟨fun _ hw s => exec_decode_of_noOpWord hw s, fun nnn x y n nn s =>
    ⟨exec_sys nnn s, exec_nop8 x y n s, exec_nopE x nn s, exec_nopF x nn s⟩⟩

end Sys2Proof.Machine
end

section
/-! PROOF. The addition with carry and the shifts of spec/41_alu.md R146, R148, R150: the values of their flags, and
what an instruction that writes VF before its result leaves in each register. -/

namespace Sys2Proof.Machine

/-! ## The flags as numbers -/

theorem carryFlag_eq_ite (a b : Byte) :
    carryFlag a b = if 255 < a.toNat + b.toNat then 0x01#8 else 0x00#8 := by
  simp only [carryFlag, flagByte, decide_eq_true_eq]

theorem flagByte_toNat (c : Bool) : (flagByte c).toNat = c.toNat := by
  cases c <;> rfl

/-- Bit 0 of a byte is its remainder modulo 2. -/
theorem shiftedOutRight_toNat (b : Byte) : (shiftedOutRight b).toNat = b.toNat % 2 := by
  rw [shiftedOutRight, flagByte_toNat, BitVec.getLsbD, Nat.toNat_testBit, pow_zero, Nat.div_one]

/-- Bit 7 of a byte is its quotient by 128, as a byte has no higher bit. -/
theorem shiftedOutLeft_toNat (b : Byte) : (shiftedOutLeft b).toNat = b.toNat / 128 := by
  have hb : b.toNat < 256 := b.isLt
  rw [shiftedOutLeft, flagByte_toNat, BitVec.getLsbD, Nat.toNat_testBit]
  omega

/-! ## VF first, then the result -/

section FlagThenResult

variable (s : State) (x : Reg) (flag result : Byte)

/-- Of the whole state the common advance and the two writes change PC and the registers alone. -/
theorem State.advance_flagThenResult_eq :
    s.advance.flagThenResult x flag result =
      { s with pc := s.pc + 2#16, v := (s.advance.flagThenResult x flag result).v } := rfl

theorem State.flagThenResult_v_result : (s.flagThenResult x flag result).v[x] = result :=
  (s.getV_flagThenResult x x flag result).trans (if_pos rfl)

theorem State.flagThenResult_v_flag (hx : x ≠ flagReg) : (s.flagThenResult x flag result).v[flagReg] = flag :=
  (s.getV_flagThenResult x flagReg flag result).trans ((if_neg hx.symm).trans (if_pos rfl))

theorem State.flagThenResult_v_other {r : Reg} (hx : r ≠ x) (hf : r ≠ flagReg) :
    (s.flagThenResult x flag result).v[r] = s.v[r] :=
  (s.getV_flagThenResult x r flag result).trans ((if_neg hx).trans (if_neg hf))

end FlagThenResult

/-- What an instruction does that advances, writes VF and then writes its result (spec/10_state.md R21 item 2). -/
theorem exec_effect_of_flagThenResult {s : State} {x : Reg} {flag result : Byte} {i : Instr}
    (hi : exec i s = .next (s.advance.flagThenResult x flag result)) :
    ∃ t, exec i s = .next t ∧ t = { s with pc := s.pc + 2#16, v := t.v } ∧ t.v[x] = result ∧
      (x ≠ 15 → t.v[15] = flag) ∧ ∀ r : Reg, r ≠ x → r ≠ 15 → t.v[r] = s.v[r] :=
  ⟨_, hi, s.advance_flagThenResult_eq x flag result, s.advance.flagThenResult_v_result x flag result,
    s.advance.flagThenResult_v_flag x flag result, fun _ => s.advance.flagThenResult_v_other x flag result⟩

/-! ## The instructions -/

theorem exec_addReg (x y : Reg) (s : State) :
    exec (.addReg x y) s = .next (s.advance.flagThenResult x (carryFlag s.v[x] s.v[y]) (s.v[x] + s.v[y])) := rfl

theorem exec_shr (x y : Reg) (s : State) :
    exec (.shr x y) s = .next (s.advance.flagThenResult x (shiftedOutRight s.v[y]) (s.v[y] >>> 1)) := rfl

theorem exec_shl (x y : Reg) (s : State) :
    exec (.shl x y) s = .next (s.advance.flagThenResult x (shiftedOutLeft s.v[y]) (s.v[y] <<< 1)) := rfl

/-- Settles O15: the carry is written to VF first, and the truncated sum after it. -/
theorem addSetsTheCarry : Obligations.AddSetsTheCarry := by
  unfold Obligations.AddSetsTheCarry
  intro x y s
  obtain ⟨t, ht, hframe, hresult, hflag, hother⟩ := exec_effect_of_flagThenResult (exec_addReg x y s)
  refine ⟨t, ht, hframe, ?_, fun hx => ?_, hother⟩
  · rw [hresult, BitVec.toNat_add]
  · rw [hflag hx, carryFlag_eq_ite]

/-- Settles O19: the bit shifted out of `V[y]` is written to VF first, and the shifted byte after it. -/
theorem shiftsMoveVyIntoVx : Obligations.ShiftsMoveVyIntoVx := by
  unfold Obligations.ShiftsMoveVyIntoVx
  intro x y s
  constructor
  · obtain ⟨t, ht, hframe, hresult, hflag, hother⟩ := exec_effect_of_flagThenResult (exec_shr x y s)
    refine ⟨t, ht, hframe, ?_, fun hx => ?_, hother⟩
    · rw [hresult, BitVec.toNat_ushiftRight, Nat.shiftRight_one]
    · rw [hflag hx, shiftedOutRight_toNat]
  · obtain ⟨t, ht, hframe, hresult, hflag, hother⟩ := exec_effect_of_flagThenResult (exec_shl x y s)
    refine ⟨t, ht, hframe, ?_, fun hx => ?_, hother⟩
    · rw [hresult, BitVec.toNat_shiftLeft, Nat.shiftLeft_eq, pow_one]
    · rw [hflag hx, shiftedOutLeft_toNat]

end Sys2Proof.Machine
end

section
/-! PROOF. The clear of spec/42_display.md R170: the blank screen has every pixel off, and the instruction writes no
more than the screen. -/

namespace Sys2Proof.Machine

theorem pixel_blankScreen (x : Fin 64) (y : Fin 32) : pixel blankScreen x y = false := by
  have hcol : blankScreen[x] = Vector.replicate 32 false := Vector.getElem_replicate x.isLt
  rw [pixel, hcol]
  exact Vector.getElem_replicate y.isLt

/-- VF is not among what it writes. -/
theorem exec_cls (s : State) : exec .cls s = .next { s with pc := s.pc + 2#16, fb := blankScreen } := rfl

/-- Settles O21: the clear writes the blank screen beside the common advance. -/
theorem clearTurnsEveryPixelOff : Obligations.ClearTurnsEveryPixelOff := by
  unfold Obligations.ClearTurnsEveryPixelOff
  exact fun s => ⟨_, exec_cls s, pixel_blankScreen, rfl⟩

end Sys2Proof.Machine
end

section
/-! PROOF. The timer instructions of spec/43_keys_timers.md R182, R184, R185: each writes one byte beside the common
advance. -/

namespace Sys2Proof.Machine

/-- DT, its source, keeps its value. -/
theorem exec_ldVxDt (x : Reg) (s : State) :
    exec (.ldVxDt x) s = .next { s with pc := s.pc + 2#16, v := s.v.set x s.dt } := rfl

/-- The registers, VF among them, are not written. -/
theorem exec_ldDtVx (x : Reg) (s : State) :
    exec (.ldDtVx x) s = .next { s with pc := s.pc + 2#16, dt := s.v[x] } := rfl

/-- DT is not written either: the two timers are apart. -/
theorem exec_ldStVx (x : Reg) (s : State) :
    exec (.ldStVx x) s = .next { s with pc := s.pc + 2#16, st := s.v[x] } := rfl

/-- Settles O26: each instruction is the copy its own lemma says. -/
theorem timerInstructionsCopyBytes : Obligations.TimerInstructionsCopyBytes := by
  unfold Obligations.TimerInstructionsCopyBytes
  exact fun x s => ⟨exec_ldVxDt x s, exec_ldDtVx x s, exec_ldStVx x s⟩

end Sys2Proof.Machine
end

section
/-! PROOF. The length check of spec/70_reset_and_hazards.md R262: a reset with a ROM that does not fit below the end of
memory is refused by name. -/

namespace Sys2Proof.Machine

variable {s : State}

/-- R262: 0x200 to 0xFFF is all the room a ROM has. -/
theorem State.nextAction_of_longerRom {rom : List Byte} {rest : List Event} (h : s.agenda = .reset rom :: rest)
    (hrom : maxRomLength < rom.length) : s.nextAction = .refuse .romTooLong := by
  simp [State.nextAction, h, Nat.not_le.mpr hrom]

theorem step_of_refuse {r : Refusal} (h : s.nextAction = .refuse r) : step s = .refused r := by
  simp [step, runAction, h]

/-- Settles O56: with a longer ROM the next action is the refusal, and the step answers it. -/
theorem longerRomIsRefused : Obligations.LongerRomIsRefused := by
  unfold Obligations.LongerRomIsRefused
  exact fun _ _ _ h hrom => step_of_refuse (State.nextAction_of_longerRom h hrom)

end Sys2Proof.Machine
end

section
/-! PROOF. The decoder and the encoder of spec/30_encoding.md R92 to R101: each takes the other back, every word decodes
to a well-formed instruction, and the ordered table agrees with the decoder. -/

namespace Sys2Proof

/-! ## The general rows in terms of the list of the assigned ones -/

theorem sysAddr_iff (nnn : Addr) : sysAddr nnn = true ↔ nnn ≠ 0x0E0#12 ∧ nnn ≠ 0x0EE#12 := by
  simp [sysAddr]

theorem unassigned8_iff_mem (n : Nibble) :
    unassigned8 n = true ↔ n ∈ [0x8#4, 0x9#4, 0xA#4, 0xB#4, 0xC#4, 0xD#4, 0xF#4] := by
  simp [unassigned8, or_assoc]

/-- The seven unassigned nibbles are the ones beside the nine assigned (R97). -/
theorem unassigned8_iff_notMem (n : Nibble) : unassigned8 n = true ↔
    n ∉ [0x0#4, 0x1#4, 0x2#4, 0x3#4, 0x4#4, 0x5#4, 0x6#4, 0x7#4, 0xE#4] := by
  revert n; decide

theorem unassignedE_iff (nn : Byte) : unassignedE nn = true ↔ nn ∉ [0x9E#8, 0xA1#8] := by
  simp [unassignedE]

theorem unassignedF_iff (nn : Byte) : unassignedF nn = true ↔
    nn ∉ [0x07#8, 0x0A#8, 0x15#8, 0x18#8, 0x1E#8, 0x29#8, 0x33#8, 0x55#8, 0x65#8] := by
  simp [unassignedF, and_assoc]

/-! ## Decode of encode -/

/-- A `SYS` word is none of family 0's two exact words, as its `NNN` is not theirs. -/
theorem decode_formatNNN_sys {nnn : Addr} (h : sysAddr nnn = true) : decode (formatNNN 0x0#4 nnn) = .sys nnn := by
  obtain ⟨hcls, hret⟩ := (sysAddr_iff nnn).mp h
  have hne : ∀ w : Word, nnn ≠ nnnField w → formatNNN 0x0#4 nnn ≠ w := fun w hw he =>
    hw (he ▸ (nnnField_formatNNN 0x0#4 nnn).symm)
  rw [decode_eq_sys (opField_formatNNN _ _) (hne _ hcls) (hne _ hret), nnnField_formatNNN]

theorem decode_formatXYN_nop8 {x y : Reg} {n : Nibble} (h : unassigned8 n = true) :
    decode (formatXYN 0x8#4 x y n) = .nop8 x y n := by
  have hn := (unassigned8_iff_mem n).mp h
  rw [decode_eq_nop8 (opField_formatXYN _ _ _ _) (by rwa [nField_formatXYN]), xField_formatXYN, yField_formatXYN,
    nField_formatXYN]

theorem decode_formatXNN_nopE {x : Reg} {nn : Byte} (h : unassignedE nn = true) :
    decode (formatXNN 0xE#4 x nn) = .nopE x nn := by
  have hnn := (unassignedE_iff nn).mp h
  rw [decode_eq_nopE (opField_formatXNN _ _ _) (by rwa [nnField_formatXNN]), xField_formatXNN, nnField_formatXNN]

theorem decode_formatXNN_nopF {x : Reg} {nn : Byte} (h : unassignedF nn = true) :
    decode (formatXNN 0xF#4 x nn) = .nopF x nn := by
  have hnn := (unassignedF_iff nn).mp h
  rw [decode_eq_nopF (opField_formatXNN _ _ _) (by rwa [nnField_formatXNN]), xField_formatXNN, nnField_formatXNN]

/-- Settles O1: the four general rows by the lemma of their family, where well-formedness is used; for every other row
the decoder's matches compute on the fields of the format. -/
theorem decodeOfEncodeIsTheInstruction : Obligations.DecodeOfEncodeIsTheInstruction := by
  unfold Obligations.DecodeOfEncodeIsTheInstruction
  intro i hwf
  cases i with
  | sys nnn => exact decode_formatNNN_sys hwf
  | nop8 x y n => exact decode_formatXYN_nop8 hwf
  | nopE x nn => exact decode_formatXNN_nopE hwf
  | nopF x nn => exact decode_formatXNN_nopF hwf
  | cls => rfl
  | ret => rfl
  | _ => simp [encode, decode, decode8, decodeE, decodeF]

/-! ## Encode of decode -/

section EncodeDecode

variable {w : Word} {op : Nibble}

/-- The sixteen families: beside the other fifteen there is family F. -/
theorem opField_eq_F (h : opField w ∉ [0x0#4, 0x1#4, 0x2#4, 0x3#4, 0x4#4, 0x5#4, 0x6#4, 0x7#4, 0x8#4, 0x9#4, 0xA#4,
    0xB#4, 0xC#4, 0xD#4, 0xE#4]) : opField w = 0xF#4 := by
  revert h; generalize opField w = n; revert n; decide

theorem formatNNN_eq_of_op (hop : opField w = op) : formatNNN op (nnnField w) = w := hop ▸ formatNNN_fields w

theorem formatXNN_eq_of_op (hop : opField w = op) : formatXNN op (xField w) (nnField w) = w := hop ▸ formatXNN_fields w

theorem formatXYN_eq_of_op (hop : opField w = op) : formatXYN op (xField w) (yField w) (nField w) = w :=
  hop ▸ formatXYN_fields w

/-- With the low nibble 0 in its place, the format gives the word without its low nibble. -/
theorem formatXYN_zero_of_op (hop : opField w = op) : formatXYN op (xField w) (yField w) 0x0#4 = w &&& 0xFFF0#16 := by
  have h : formatXYN op (xField w) (yField w) (nField w) &&& 0xFFF0#16 = formatXYN op (xField w) (yField w) 0x0#4 := by
    change (op ++ nibbleOf (xField w) ++ nibbleOf (yField w) ++ nField w : BitVec (4 + 4 + 4 + 4)) &&&
      (0xF#4 ++ 0xF#4 ++ 0xF#4 ++ 0x0#4) = op ++ nibbleOf (xField w) ++ nibbleOf (yField w) ++ 0x0#4
    simp only [BitVec.and_append, Laws.RowMatch.nibble_and, BitVec.and_zero]
  rw [← h, formatXYN_eq_of_op hop]

theorem encode_decode0 (hop : opField w = 0x0#4) : encode (decode0 w) = w := by
  unfold decode0
  split
  · simp_all [encode]
  · split
    · simp_all [encode]
    · exact formatNNN_eq_of_op hop

theorem encode_decode8 (hop : opField w = 0x8#4) : encode (decode8 w) = w := by
  have h := formatXYN_eq_of_op hop
  unfold decode8
  split <;> simp_all [encode]

theorem encode_decodeE (hop : opField w = 0xE#4) : encode (decodeE w) = w := by
  have h := formatXNN_eq_of_op hop
  unfold decodeE
  split <;> simp_all [encode]

theorem encode_decodeF (hop : opField w = 0xF#4) : encode (decodeF w) = w := by
  have h := formatXNN_eq_of_op hop
  unfold decodeF
  split <;> simp_all [encode]

/-- Outside families 5 and 9 every bit of the word is in the instruction. -/
theorem encode_decode (h5 : opField w ≠ 0x5#4) (h9 : opField w ≠ 0x9#4) : encode (decode w) = w := by
  fun_cases decode w with
  | case1 hop => exact encode_decode0 hop
  | case2 hop | case3 hop | case11 hop | case12 hop => exact formatNNN_eq_of_op hop
  | case4 hop | case5 hop | case7 hop | case8 hop | case13 hop => exact formatXNN_eq_of_op hop
  | case6 hop => exact absurd hop h5
  | case9 hop => exact encode_decode8 hop
  | case10 hop => exact absurd hop h9
  | case14 hop => exact formatXYN_eq_of_op hop
  | case15 hop => exact encode_decodeE hop
  | case16 => exact encode_decodeF (opField_eq_F (by simp_all))

/-- In families 5 and 9 the low nibble is not in the instruction (decision D10). -/
theorem encode_decode_of_skip (hop : opField w = 0x5#4 ∨ opField w = 0x9#4) : encode (decode w) = w &&& 0xFFF0#16 := by
  rcases hop with hop | hop
  · simpa [decode, hop, encode] using formatXYN_zero_of_op hop
  · simpa [decode, hop, encode] using formatXYN_zero_of_op hop

end EncodeDecode

/-- Settles O2: the families 5 and 9, and the fourteen others. -/
theorem encodeOfDecodeIsTheWord : Obligations.EncodeOfDecodeIsTheWord := by
  unfold Obligations.EncodeOfDecodeIsTheWord
  intro w
  split
  · exact encode_decode_of_skip ‹_›
  · rename_i h
    exact encode_decode (fun h5 => h (.inl h5)) (fun h9 => h (.inr h9))

/-! ## Every word decodes to a well-formed instruction -/

/-- Only two words of family 0 have the `NNN` of an exact one: these themselves. -/
theorem wf_decode0 {w : Word} (hop : opField w = 0x0#4) : (decode0 w).wf = true := by
  have hw := formatNNN_eq_of_op hop
  unfold decode0
  split
  · rfl
  · rename_i hcls
    split
    · rfl
    · rename_i hret
      refine (sysAddr_iff _).mpr ⟨fun h => hcls ?_, fun h => hret ?_⟩
      · rw [← hw, h]; rfl
      · rw [← hw, h]; rfl

theorem wf_decode8 (w : Word) : (decode8 w).wf = true := by
  unfold decode8
  split
  case h_10 => exact (unassigned8_iff_notMem _).mpr (by simp_all)
  all_goals rfl

theorem wf_decodeE (w : Word) : (decodeE w).wf = true := by
  unfold decodeE
  split
  case h_3 => exact (unassignedE_iff _).mpr (by simp_all)
  all_goals rfl

theorem wf_decodeF (w : Word) : (decodeF w).wf = true := by
  unfold decodeF
  split
  case h_10 => exact (unassignedF_iff _).mpr (by simp_all)
  all_goals rfl

/-- Settles O3: only in families 0, 8, E and F is there something to check, and there their own lemma says it. -/
theorem decodedInstructionIsWellFormed : Obligations.DecodedInstructionIsWellFormed := by
  unfold Obligations.DecodedInstructionIsWellFormed
  intro w
  fun_cases decode w with
  | case1 hop => exact wf_decode0 hop
  | case9 => exact wf_decode8 w
  | case15 => exact wf_decodeE w
  | case16 => exact wf_decodeF w
  | _ => rfl

end Sys2Proof

/-! ## The ordered table -/

namespace Sys2Proof.Laws.RowMatch

/-- The word of every instruction matches the instruction's row. -/
theorem encode_matches_row : ∀ i : Instr, Statement i
  | .cls => cls
  | .ret => ret
  | .sys nnn => sys nnn
  | .jp nnn => jp nnn
  | .call nnn => call nnn
  | .seImm x nn => seImm x nn
  | .sneImm x nn => sneImm x nn
  | .seReg x y => seReg x y
  | .ldImm x nn => ldImm x nn
  | .addImm x nn => addImm x nn
  | .ldReg x y => ldReg x y
  | .orReg x y => orReg x y
  | .andReg x y => andReg x y
  | .xorReg x y => xorReg x y
  | .addReg x y => addReg x y
  | .sub x y => sub x y
  | .shr x y => shr x y
  | .subn x y => subn x y
  | .shl x y => shl x y
  | .nop8 x y n => nop8 x y n
  | .sneReg x y => sneReg x y
  | .ldI nnn => ldI nnn
  | .jpV0 nnn => jpV0 nnn
  | .rnd x nn => rnd x nn
  | .drw x y n => drw x y n
  | .skp x => skp x
  | .sknp x => sknp x
  | .nopE x nn => nopE x nn
  | .ldVxDt x => ldVxDt x
  | .ldVxK x => ldVxK x
  | .ldDtVx x => ldDtVx x
  | .ldStVx x => ldStVx x
  | .addI x => addI x
  | .ldF x => ldF x
  | .ldB x => ldB x
  | .ldMemVx x => ldMemVx x
  | .ldVxMem x => ldVxMem x
  | .nopF x nn => nopF x nn

end Sys2Proof.Laws.RowMatch

namespace Sys2Proof

variable {w : Word} {row row' : Word × Word} {k : Nat}

theorem rowMatches_iff : rowMatches w row = true ↔ w &&& row.2 = row.1 := by simp [rowMatches]

/-- Two rows that match one word agree on the bits both examine. -/
theorem rows_agree (h : rowMatches w row = true) (h' : rowMatches w row' = true) :
    row.1 &&& row'.2 = row'.1 &&& row.2 := by
  rw [← rowMatches_iff.mp h, ← rowMatches_iff.mp h', BitVec.and_assoc, BitVec.and_assoc, BitVec.and_comm row.2]

/-- The first matching row: it matches and none before it does. -/
theorem winningRow_eq_some (hrow : opcodeTable[k]? = some row) (hm : rowMatches w row = true)
    (h : ∀ r ∈ opcodeTable.take k, rowMatches w r ≠ true) : winningRow w = some k := by
  obtain ⟨hk, rfl⟩ := List.getElem?_eq_some_iff.mp hrow
  refine List.findIdx?_eq_some_iff_getElem.mpr ⟨hk, hm, fun j hj hmj => ?_⟩
  exact h _ (List.mem_take_iff_getElem.mpr ⟨j, by omega, rfl⟩) hmj

/-- Every earlier row differs from row `k` in a bit both examine. -/
def earlierRowsApart (k : Nat) : Bool :=
  (opcodeTable[k]?).all fun row => (opcodeTable.take k).all fun r => r.1 &&& row.2 != row.1 &&& r.2

theorem winningRow_of_apart (hrow : opcodeTable[k]? = some row) (hm : rowMatches w row = true)
    (h : earlierRowsApart k = true) : winningRow w = some k := by
  simp only [earlierRowsApart, hrow, Option.all_some, List.all_eq_true, bne_iff_ne] at h
  exact winningRow_eq_some hrow hm fun r hr hmr => h r hr (rows_agree hmr hm)

/-- Every earlier row differs from row `k` in a bit both examine, or is a row of the family's own, with a field value
that the general row does not have. -/
def earlierRowsAssigned {n : Nat} (k : Nat) (mask : Word) (field : Word → BitVec n) (general : BitVec n → Bool) :
    Bool :=
  (opcodeTable[k]?).all fun row => (opcodeTable.take k).all fun r =>
    r.1 &&& row.2 != row.1 &&& r.2 || (r.2 == mask && !general (field r.1))

/-- The general row of a family takes the words whose field no row of the family's own has. -/
theorem winningRow_of_general {n : Nat} {mask : Word} {field : Word → BitVec n} {general : BitVec n → Bool}
    (hrow : opcodeTable[k]? = some row) (hm : rowMatches w row = true)
    (h : earlierRowsAssigned k mask field general = true) (hfield : field (w &&& mask) = field w)
    (hw : general (field w) = true) : winningRow w = some k := by
  simp only [earlierRowsAssigned, hrow, Option.all_some, List.all_eq_true, Bool.or_eq_true, Bool.and_eq_true,
    bne_iff_ne, beq_iff_eq, Bool.not_eq_true'] at h
  refine winningRow_eq_some hrow hm fun r hr hmr => ?_
  obtain hapart | ⟨rfl, hassigned⟩ := h r hr
  · exact hapart (rows_agree hmr hm)
  · rw [← rowMatches_iff.mp hmr, hfield, hw] at hassigned
    cases hassigned

/-- The low bits of a word, read through a mask that keeps them. -/
theorem extract_and_mask {n : Nat} {mask : Word} (hmask : mask.extractLsb' 0 n = BitVec.allOnes n) :
    (w &&& mask).extractLsb' 0 n = w.extractLsb' 0 n := by
  rw [BitVec.extractLsb'_and, hmask, BitVec.and_allOnes]

/-- The word of a well-formed instruction is won by the instruction's row. -/
theorem winningRow_encode {i : Instr} (hwf : i.wf = true) : winningRow (encode i) = some i.row := by
  have hm := Laws.RowMatch.encode_matches_row i
  cases i with
  | sys nnn =>
    exact winningRow_of_general (mask := 0xFFFF#16) (field := nnnField) (general := sysAddr) rfl hm rfl
      (extract_and_mask rfl) (by rwa [encode, nnnField_formatNNN])
  | nop8 x y n =>
    exact winningRow_of_general (mask := 0xF00F#16) (field := nField) (general := unassigned8) rfl hm rfl
      (extract_and_mask rfl) (by rwa [encode, nField_formatXYN])
  | nopE x nn =>
    exact winningRow_of_general (mask := 0xF0FF#16) (field := nnField) (general := unassignedE) rfl hm rfl
      (extract_and_mask rfl) (by rwa [encode, nnField_formatXNN])
  | nopF x nn =>
    exact winningRow_of_general (mask := 0xF0FF#16) (field := nnField) (general := unassignedF) rfl hm rfl
      (extract_and_mask rfl) (by rwa [encode, nnField_formatXNN])
  | _ => exact winningRow_of_apart rfl hm rfl

/-- Families 5 and 9 have one row each, which does not examine the low nibble. -/
theorem winningRow_of_skip (hop : opField w = 0x5#4 ∨ opField w = 0x9#4) : winningRow w = some (decode w).row := by
  have hm := Laws.RowMatch.and_formatNNN (opField w) (nnnField w)
  rw [formatNNN_fields] at hm
  rcases hop with hop | hop <;> rw [hop] at hm
  · rw [show decode w = .seReg (xField w) (yField w) by simp [decode, hop]]
    exact winningRow_of_apart rfl (rowMatches_iff.mpr hm) rfl
  · rw [show decode w = .sneReg (xField w) (yField w) by simp [decode, hop]]
    exact winningRow_of_apart rfl (rowMatches_iff.mpr hm) rfl

/-- Settles O4: outside families 5 and 9 a word is the encoding of its instruction, whose row is the winning one. -/
theorem firstMatchingRowIsTheDecodedOne : Obligations.FirstMatchingRowIsTheDecodedOne := by
  unfold Obligations.FirstMatchingRowIsTheDecodedOne
  intro w
  by_cases hop : opField w = 0x5#4 ∨ opField w = 0x9#4
  · exact winningRow_of_skip hop
  · have hw : encode (decode w) = w := encode_decode (fun h5 => hop (.inl h5)) (fun h9 => hop (.inr h9))
    simpa [hw] using winningRow_encode (decodedInstructionIsWellFormed w)

/-! ## Words of spec/95_test_vectors.md section 3 -/

/-- Settles O5: the decoder computes on each of the twelve words. -/
theorem specWordsDecodeAsListed : Obligations.SpecWordsDecodeAsListed := by
  unfold Obligations.SpecWordsDecodeAsListed
  decide

end Sys2Proof
end

section
/-! PROOF. What every instruction does, said once: the fault of the table of causes (spec/60_exceptions.md R221), or an
update of the state that names the fields the instruction writes. -/

namespace Sys2Proof.Machine

open Sys2Proof.Claims

/-! ## One poll of the key wait -/

/-- One poll of `LD Vx, K` (spec/43_keys_timers.md R183): it polls again by leaving the PC where it is. -/
def State.keyWaitPoll (s : State) (x : Reg) : State :=
  if s.kwWaiting then
    if s.ports.keys.getLsbD s.kwKey.toNat then s
    else { s with pc := s.pc + 2#16, kwWaiting := false, v := s.v.set s.kwReg (s.kwKey.setWidth 8) }
  else if s.ports.keys = 0#16 then s
  else { s with kwWaiting := true, kwReg := x, kwKey := lowestKey s.ports.keys }

theorem State.pollWaiting_advance (s : State) : s.advance.pollWaiting =
    if s.ports.keys.getLsbD s.kwKey.toNat then s
    else { s with pc := s.pc + 2#16, kwWaiting := false, v := s.v.set s.kwReg (s.kwKey.setWidth 8) } := by
  rw [State.pollWaiting, State.rewind_advance]; rfl

theorem State.pollIdle_advance (s : State) (x : Reg) : s.advance.pollIdle x =
    if s.ports.keys = 0#16 then s else { s with kwWaiting := true, kwReg := x, kwKey := lowestKey s.ports.keys } := by
  rw [State.pollIdle, State.rewind_advance]; rfl

theorem State.keyWaitPoll_eq_ite (s : State) (x : Reg) :
    s.keyWaitPoll x = if s.kwWaiting then s.advance.pollWaiting else s.advance.pollIdle x := by
  rw [State.pollWaiting_advance, State.pollIdle_advance]; rfl

/-- The fields a poll writes. -/
theorem State.keyWaitPoll_eq (s : State) (x : Reg) : s.keyWaitPoll x =
    { s with
      pc := (s.keyWaitPoll x).pc, v := (s.keyWaitPoll x).v, kwWaiting := (s.keyWaitPoll x).kwWaiting
      kwReg := (s.keyWaitPoll x).kwReg, kwKey := (s.keyWaitPoll x).kwKey } := by
  unfold State.keyWaitPoll
  split <;> split <;> rfl

/-! ## The effect of an instruction -/

/-- What an instruction does where it raises no fault: each arm an update that names the fields written. -/
def effect (i : Instr) (s : State) : State :=
  match i with
  | .cls => { s with pc := s.pc + 2#16, fb := blankScreen }
  | .ret => { s with pc := s.stack[stackSlot (s.sp.val - 1)], sp := stackCount (s.sp.val - 1) }
  | .sys _ => { s with pc := s.pc + 2#16 }
  | .jp nnn => { s with pc := addrWord nnn }
  | .call nnn =>
    { s with
      pc := addrWord nnn, sp := stackCount (s.sp.val + 1), stack := s.stack.set (stackSlot s.sp.val) (s.pc + 2#16) }
  | .seImm x nn => { s with pc := if s.v[x] = nn then s.pc + 4#16 else s.pc + 2#16 }
  | .sneImm x nn => { s with pc := if s.v[x] ≠ nn then s.pc + 4#16 else s.pc + 2#16 }
  | .seReg x y => { s with pc := if s.v[x] = s.v[y] then s.pc + 4#16 else s.pc + 2#16 }
  | .ldImm x nn => { s with pc := s.pc + 2#16, v := s.v.set x nn }
  | .addImm x nn => { s with pc := s.pc + 2#16, v := s.v.set x (s.v[x] + nn) }
  | .ldReg x y => { s with pc := s.pc + 2#16, v := s.v.set x s.v[y] }
  | .orReg x y => { s with pc := s.pc + 2#16, v := s.v.set x (s.v[x] ||| s.v[y]) }
  | .andReg x y => { s with pc := s.pc + 2#16, v := s.v.set x (s.v[x] &&& s.v[y]) }
  | .xorReg x y => { s with pc := s.pc + 2#16, v := s.v.set x (s.v[x] ^^^ s.v[y]) }
  | .addReg x y =>
    { s with pc := s.pc + 2#16, v := (s.flagThenResult x (carryFlag s.v[x] s.v[y]) (s.v[x] + s.v[y])).v }
  | .sub x y => { s with pc := s.pc + 2#16, v := (s.writeDifference s.params.subFlag x s.v[x] s.v[y]).v }
  | .shr x y => { s with pc := s.pc + 2#16, v := (s.flagThenResult x (shiftedOutRight s.v[y]) (s.v[y] >>> 1)).v }
  | .subn x y => { s with pc := s.pc + 2#16, v := (s.writeDifference s.params.subnFlag x s.v[y] s.v[x]).v }
  | .shl x y => { s with pc := s.pc + 2#16, v := (s.flagThenResult x (shiftedOutLeft s.v[y]) (s.v[y] <<< 1)).v }
  | .nop8 _ _ _ => { s with pc := s.pc + 2#16 }
  | .sneReg x y => { s with pc := if s.v[x] ≠ s.v[y] then s.pc + 4#16 else s.pc + 2#16 }
  | .ldI nnn => { s with pc := s.pc + 2#16, idx := addrWord nnn }
  | .jpV0 nnn => { s with pc := addrWord nnn + byteWord s.v[0] }
  | .rnd x nn => { s with pc := s.pc + 2#16, v := s.v.set x (s.ports.rnd &&& nn) }
  | .drw x y n =>
    let d := s.spriteDrawing s.v[x].toNat s.v[y].toNat n.toNat
    { s with pc := s.pc + 2#16, v := s.v.set flagReg (flagByte d.2), fb := d.1 }
  | .skp x => { s with pc := if s.ports.keys.getLsbD s.v[x].toNat = true then s.pc + 4#16 else s.pc + 2#16 }
  | .sknp x => { s with pc := if s.ports.keys.getLsbD s.v[x].toNat = true then s.pc + 2#16 else s.pc + 4#16 }
  | .nopE _ _ => { s with pc := s.pc + 2#16 }
  | .ldVxDt x => { s with pc := s.pc + 2#16, v := s.v.set x s.dt }
  | .ldVxK x =>
    let t := s.keyWaitPoll x
    { s with pc := t.pc, v := t.v, kwWaiting := t.kwWaiting, kwReg := t.kwReg, kwKey := t.kwKey }
  | .ldDtVx x => { s with pc := s.pc + 2#16, dt := s.v[x] }
  | .ldStVx x => { s with pc := s.pc + 2#16, st := s.v[x] }
  | .addI x => { s with pc := s.pc + 2#16, idx := s.idx + byteWord s.v[x] }
  | .ldF x => { s with pc := s.pc + 2#16, idx := byteWord s.v[x] * 5#16 }
  | .ldB x =>
    { s with pc := s.pc + 2#16, mem := s.mem.writeBytes s.params.font s.idx.toNat (decimalDigits s.v[x]) }
  | .ldMemVx x =>
    { s with
      pc := s.pc + 2#16, mem := s.mem.writeBytes s.params.font s.idx.toNat (s.regsUpTo x)
      idx := s.idx + BitVec.ofNat 16 (x.val + 1) }
  | .ldVxMem x =>
    { s with pc := s.pc + 2#16, v := s.loadedRegs x s.idx.toNat, idx := s.idx + BitVec.ofNat 16 (x.val + 1) }
  | .nopF _ _ => { s with pc := s.pc + 2#16 }

/-! ## The model's guards as the table of causes -/

theorem firstOutOfRange_eq (base : Word) : firstOutOfRange base.toNat = LowestOutOfRange base := by
  have hbase : base.toNat < 0x10000 := base.isLt
  apply BitVec.eq_of_toNat_eq
  rw [firstOutOfRange_toNat _ (by omega), LowestOutOfRange]
  split
  · rw [BitVec.toNat_ofNat]; omega
  · rw [BitVec.toNat_setWidth]; omega

theorem State.guardData_eq_ite (s : State) (n : Nat) (t : State) : s.guardData n t =
    if 0 < n ∧ 0x0FFF < s.idx.toNat + n - 1 then Faulted s .dataRangeFault (LowestOutOfRange s.idx) else t := by
  rw [State.guardData, firstOutOfRange_eq]
  simp only [leavesMemory, Bool.and_eq_true, decide_eq_true_eq]
  rfl

theorem State.skipIf_advance (s : State) {c : Bool} {p : Prop} [Decidable p] (h : c = true ↔ p) :
    s.advance.skipIf c = { s with pc := if p then s.pc + 4#16 else s.pc + 2#16 } := by
  have h4 : s.pc + 2#16 + 2#16 = s.pc + 4#16 := BitVec.add_assoc _ _ _
  simp only [State.skipIf, State.advance, State.setPc, h, h4]
  split <;> rfl

theorem State.skipIf_not_advance (s : State) (c : Bool) :
    s.advance.skipIf (!c) = { s with pc := if c = true then s.pc + 2#16 else s.pc + 4#16 } := by
  rw [s.skipIf_advance (p := ¬ c = true) (by simp)]
  simp only [ite_not]

theorem State.writeDifference_advance (s : State) (mode : FlagMode) (x : Reg) (a b : Byte) :
    s.advance.writeDifference mode x a b =
      { s with pc := s.pc + 2#16, v := (s.writeDifference mode x a b).v } := by
  cases mode <;> rfl

/-- A guard with a fault of the table: the faulted state, or the effect. -/
theorem ite_eq_elim {c c' : Prop} [Decidable c] [Decidable c'] (h : c ↔ c') (s t : State) (f : Cause × BitVec 17) :
    (if c then Faulted s f.1 f.2 else t) =
      (if c' then some f else none : Option (Cause × BitVec 17)).elim t fun f => Faulted s f.1 f.2 := by
  simp only [h]
  split <;> rfl

/-- Every instruction answers the fault the table of causes gives it, or else its effect. -/
theorem exec_eq (i : Instr) (s : State) :
    exec i s = .next ((FaultOf i s).elim (effect i s) fun f => Faulted s f.1 f.2) := by
  cases i with
  | ret => exact congrArg _ (ite_eq_elim Iff.rfl s _ (.stackUnderflow, 0#17))
  | call nnn => exact congrArg _ (ite_eq_elim Iff.rfl s _ (.stackOverflow, 0#17))
  | drw x y n =>
    exact congrArg _ ((s.guardData_eq_ite n.toNat _).trans (ite_eq_elim Iff.rfl s _ (.dataRangeFault, _)))
  | ldB x =>
    exact congrArg _ ((s.guardData_eq_ite 3 _).trans (ite_eq_elim (by omega) s _ (.dataRangeFault, _)))
  | ldMemVx x =>
    exact congrArg _ ((s.guardData_eq_ite (x.val + 1) _).trans (ite_eq_elim (by omega) s _ (.dataRangeFault, _)))
  | ldVxMem x =>
    exact congrArg _ ((s.guardData_eq_ite (x.val + 1) _).trans (ite_eq_elim (by omega) s _ (.dataRangeFault, _)))
  | skp x =>
    exact congrArg _ ((congrArg (s.guardKey s.v[x]) (s.skipIf_advance Iff.rfl)).trans
      (ite_eq_elim Iff.rfl s _ (.keyIndexFault, _)))
  | sknp x =>
    exact congrArg _ ((congrArg (s.guardKey s.v[x]) (s.skipIf_not_advance _)).trans
      (ite_eq_elim Iff.rfl s _ (.keyIndexFault, _)))
  | seImm | seReg => exact congrArg _ (s.skipIf_advance beq_iff_eq)
  | sneImm | sneReg => exact congrArg _ (s.skipIf_advance bne_iff_ne)
  | sub | subn => exact congrArg _ (s.writeDifference_advance _ _ _ _)
  | ldVxK x => exact congrArg _ ((s.keyWaitPoll_eq_ite x).symm.trans (s.keyWaitPoll_eq x))
  | _ => rfl

variable {i : Instr} {s t : State}

theorem exec_of_fault {cause : Cause} {addr : BitVec 17} (h : FaultOf i s = some (cause, addr)) :
    exec i s = .next (Faulted s cause addr) := by
  rw [exec_eq, h]; rfl

theorem exec_of_no_fault (h : FaultOf i s = none) : exec i s = .next (effect i s) := by
  rw [exec_eq, h]; rfl

/-- What an instruction that answers a next state did: it faulted with nothing else, or had its effect. -/
theorem exec_cases (h : exec i s = .next t) :
    (∃ cause addr, FaultOf i s = some (cause, addr) ∧ t = Faulted s cause addr) ∨
    (FaultOf i s = none ∧ t = effect i s) := by
  rw [exec_eq] at h
  cases hf : FaultOf i s with
  | none => rw [hf] at h; cases h; exact .inr ⟨rfl, rfl⟩
  | some f => rw [hf] at h; cases h; exact .inl ⟨f.1, f.2, rfl, rfl⟩

/-! ## The frame of every instruction -/

/-- The effect of an instruction writes neither the status and the record nor anything of the host's side. -/
theorem effect_eq (i : Instr) (s : State) : effect i s =
    { s with
      v := (effect i s).v, idx := (effect i s).idx, pc := (effect i s).pc, stack := (effect i s).stack
      sp := (effect i s).sp, dt := (effect i s).dt, st := (effect i s).st, fb := (effect i s).fb
      kwWaiting := (effect i s).kwWaiting, kwReg := (effect i s).kwReg, kwKey := (effect i s).kwKey
      mem := (effect i s).mem } := by
  cases i <;> rfl

/-- Settles O36: the fault of the table, or the effect. -/
theorem everyInstructionAnswersANextState : Obligations.EveryInstructionAnswersANextState := by
  unfold Obligations.EveryInstructionAnswersANextState
  exact fun i s => ⟨_, exec_eq i s⟩

/-- Settles O37: the table says whether there is a fault, and an effect writes neither the status nor the record. -/
theorem faultsAreTheListedOnesAndPrecise : Obligations.FaultsAreTheListedOnesAndPrecise := by
  unfold Obligations.FaultsAreTheListedOnesAndPrecise
  intro i s t h
  obtain ⟨cause, addr, hf, rfl⟩ | ⟨hf, rfl⟩ := exec_cases h
  · rw [hf]
  · rw [hf, effect_eq]; exact ⟨rfl, rfl, rfl, rfl⟩

/-- Settles O41: neither a fault nor an effect writes the host's side. -/
theorem instructionsLeaveTheHostSideAlone : Obligations.InstructionsLeaveTheHostSideAlone := by
  unfold Obligations.InstructionsLeaveTheHostSideAlone
  intro i s t h
  obtain ⟨cause, addr, -, rfl⟩ | ⟨-, rfl⟩ := exec_cases h
  · exact ⟨rfl, rfl, rfl, rfl, rfl, rfl, rfl, rfl, rfl, rfl, rfl⟩
  · rw [effect_eq]; exact ⟨rfl, rfl, rfl, rfl, rfl, rfl, rfl, rfl, rfl, rfl, rfl⟩

/-! ## Who writes which field -/

theorem effect_fb (i : Instr) (s : State) :
    (effect i s).fb = s.fb ∨ i = .cls ∨ ∃ x y n, i = .drw x y n := by
  cases i with
  | cls => exact .inr (.inl rfl)
  | drw x y n => exact .inr (.inr ⟨x, y, n, rfl⟩)
  | _ => simp only [effect, true_or]

theorem effect_stack (i : Instr) (s : State) :
    ((effect i s).sp = s.sp ∧ (effect i s).stack = s.stack) ∨ i = .ret ∨ ∃ nnn, i = .call nnn := by
  cases i with
  | ret => exact .inr (.inl rfl)
  | call nnn => exact .inr (.inr ⟨nnn, rfl⟩)
  | _ => simp only [effect, true_or, and_self]

theorem effect_mem (i : Instr) (s : State) :
    (effect i s).mem = s.mem ∨ (∃ x, i = .ldB x) ∨ ∃ x, i = .ldMemVx x := by
  cases i with
  | ldB x => exact .inr (.inl ⟨x, rfl⟩)
  | ldMemVx x => exact .inr (.inr ⟨x, rfl⟩)
  | _ => simp only [effect, true_or]

theorem effect_idx (i : Instr) (s : State) :
    (effect i s).idx = s.idx ∨ (∃ nnn, i = .ldI nnn) ∨ (∃ x, i = .addI x) ∨ (∃ x, i = .ldF x) ∨
      (∃ x, i = .ldMemVx x) ∨ ∃ x, i = .ldVxMem x := by
  cases i with
  | ldI nnn => exact .inr (.inl ⟨nnn, rfl⟩)
  | addI x => exact .inr (.inr (.inl ⟨x, rfl⟩))
  | ldF x => exact .inr (.inr (.inr (.inl ⟨x, rfl⟩)))
  | ldMemVx x => exact .inr (.inr (.inr (.inr (.inl ⟨x, rfl⟩))))
  | ldVxMem x => exact .inr (.inr (.inr (.inr (.inr ⟨x, rfl⟩))))
  | _ => simp only [effect, true_or]

theorem effect_dt (i : Instr) (s : State) : (effect i s).dt = s.dt ∨ ∃ x, i = .ldDtVx x := by
  cases i with
  | ldDtVx x => exact .inr ⟨x, rfl⟩
  | _ => simp only [effect, true_or]

theorem effect_st (i : Instr) (s : State) : (effect i s).st = s.st ∨ ∃ x, i = .ldStVx x := by
  cases i with
  | ldStVx x => exact .inr ⟨x, rfl⟩
  | _ => simp only [effect, true_or]

theorem effect_keyWait (i : Instr) (s : State) :
    ((effect i s).kwWaiting = s.kwWaiting ∧ (effect i s).kwReg = s.kwReg ∧ (effect i s).kwKey = s.kwKey) ∨
      ∃ x, i = .ldVxK x := by
  cases i with
  | ldVxK x => exact .inr ⟨x, rfl⟩
  | _ => simp only [effect, true_or, and_self]

/-- Settles O39: a fault writes none of the three parts, and of the effects the listed ones do. -/
theorem screenStackAndMemoryWriters : Obligations.ScreenStackAndMemoryWriters := by
  unfold Obligations.ScreenStackAndMemoryWriters
  intro i s t h
  obtain ⟨cause, addr, -, rfl⟩ | ⟨-, rfl⟩ := exec_cases h
  · exact ⟨.inl rfl, .inl ⟨rfl, rfl⟩, .inl rfl⟩
  · exact ⟨effect_fb i s, effect_stack i s, effect_mem i s⟩

/-- Settles O40: a fault writes none of the four parts, and of the effects the listed ones do. -/
theorem indexTimerAndKeyWaitWriters : Obligations.IndexTimerAndKeyWaitWriters := by
  unfold Obligations.IndexTimerAndKeyWaitWriters
  intro i s t h
  obtain ⟨cause, addr, -, rfl⟩ | ⟨-, rfl⟩ := exec_cases h
  · exact ⟨.inl rfl, .inl rfl, .inl rfl, .inl ⟨rfl, rfl, rfl⟩⟩
  · exact ⟨effect_idx i s, effect_dt i s, effect_st i s, effect_keyWait i s⟩

end Sys2Proof.Machine
end

section
/-! PROOF. What an instruction writes among the registers (spec/10_state.md R20, R21), and what it does not read: a port
that is not its own (spec/43_keys_timers.md R186, spec/60_exceptions.md R235) and the sound timer (R25). -/

namespace Sys2Proof.Machine

open Sys2Proof.Claims

/-! ## Registers -/

theorem set_other {v : Vector Byte 16} {x r : Reg} {b : Byte} (h : r ≠ x) : (v.set x b)[r] = v[r] :=
  (getElem_set_fin v x r b).trans (if_neg h)

theorem State.writeDifference_v_other (s : State) (mode : FlagMode) {x r : Reg} (a b : Byte) (hx : r ≠ x)
    (hf : r ≠ flagReg) : (s.writeDifference mode x a b).v[r] = s.v[r] := by
  cases mode with
  | resultSign => exact (set_other hf).trans (set_other hx)
  | noBorrow => exact (set_other hx).trans (set_other hf)

theorem State.loadedRegs_getElem (s : State) (x r : Reg) (a : Nat) :
    (s.loadedRegs x a)[r] = if r ≤ x then s.readByte (a + r.val) else s.v[r] := s.getV_loadRegs x r a

/-- A poll writes the target of the wait, and only when a wait is on. -/
theorem State.keyWaitPoll_v_other (s : State) (x : Reg) {r : Reg} (h : ¬ (s.kwWaiting = true ∧ r = s.kwReg)) :
    (s.keyWaitPoll x).v[r] = s.v[r] := by
  unfold State.keyWaitPoll
  split
  · split
    · rfl
    · exact set_other fun hr => h ⟨‹_›, hr⟩
  · split <;> rfl

theorem effect_v_other (i : Instr) (s : State) {r : Reg} (h : ¬ NamesDestination i s r)
    (hf : r = 15 → ¬ WritesFlag i) : (effect i s).v[r] = s.v[r] := by
  cases i with
  | ldImm | addImm | ldReg | orReg | andReg | xorReg | rnd | ldVxDt => exact set_other h
  | addReg | shr | shl => exact s.flagThenResult_v_other _ _ _ h fun hr => hf hr trivial
  | sub | subn => exact s.writeDifference_v_other _ _ _ h fun hr => hf hr trivial
  | drw => exact set_other fun hr => hf hr trivial
  | ldVxK x => exact s.keyWaitPoll_v_other x h
  | ldVxMem x => exact (s.loadedRegs_getElem x r _).trans (if_neg h)
  | _ => simp only [effect]

/-- Settles O38: a fault writes no register, and an effect none but the destinations and the flag. -/
theorem registersChangeOnlyAsNamed : Obligations.RegistersChangeOnlyAsNamed := by
  unfold Obligations.RegistersChangeOnlyAsNamed
  intro i s t h r hr hf
  obtain ⟨cause, addr, -, rfl⟩ | ⟨-, rfl⟩ := exec_cases h
  · rfl
  · exact effect_v_other i s hr hf

/-! ## Ports -/

section Ports

variable {i : Instr} {s : State} {p : Ports}

theorem faultOf_ports (i : Instr) (s : State) (p : Ports) : FaultOf i { s with ports := p } = FaultOf i s := by
  cases i <;> rfl

theorem State.writeDifference_ports_v (s : State) (p : Ports) (mode : FlagMode) (x : Reg) (a b : Byte) :
    ({ s with ports := p }.writeDifference mode x a b).v = (s.writeDifference mode x a b).v := by
  cases mode <;> rfl

theorem State.keyWaitPoll_ports (s : State) (x : Reg) (h : p.keys = s.ports.keys) :
    { s with ports := p }.keyWaitPoll x = { s.keyWaitPoll x with ports := p } := by
  simp only [State.keyWaitPoll, h]
  split <;> split <;> rfl

theorem effect_ports (hk : p.keys = s.ports.keys ∨ ((∀ x, i ≠ .skp x) ∧ (∀ x, i ≠ .sknp x) ∧ ∀ x, i ≠ .ldVxK x))
    (hr : p.rnd = s.ports.rnd ∨ ∀ x nn, i ≠ .rnd x nn) :
    effect i { s with ports := p } = { effect i s with ports := p } := by
  cases i with
  | skp x =>
    have hk : p.keys = s.ports.keys := hk.resolve_right fun h => h.1 x rfl
    simp only [effect, hk]
  | sknp x =>
    have hk : p.keys = s.ports.keys := hk.resolve_right fun h => h.2.1 x rfl
    simp only [effect, hk]
  | ldVxK x =>
    have hk : p.keys = s.ports.keys := hk.resolve_right fun h => h.2.2 x rfl
    simp only [effect, s.keyWaitPoll_ports x hk]
  | rnd x nn =>
    have hr : p.rnd = s.ports.rnd := hr.resolve_right fun h => h x nn rfl
    simp only [effect, hr]
  | sub | subn => simp only [effect, State.writeDifference_ports_v]
  | _ => rfl

end Ports

/-- Settles O42: neither the table of causes nor an effect reads a port that is not the instruction's. -/
theorem portsAreReadByTheirInstructionsAlone : Obligations.PortsAreReadByTheirInstructionsAlone := by
  unfold Obligations.PortsAreReadByTheirInstructionsAlone
  intro i s t p h hk hr
  obtain ⟨cause, addr, hf, rfl⟩ | ⟨hf, rfl⟩ := exec_cases h
  · exact exec_of_fault ((faultOf_ports i s p).trans hf)
  · rw [exec_of_no_fault ((faultOf_ports i s p).trans hf), effect_ports hk hr]

/-! ## The sound timer -/

section SoundTimer

variable (i : Instr) (s : State) (b : Byte)

theorem faultOf_st : FaultOf i { s with st := b } = FaultOf i s := by
  cases i <;> rfl

theorem State.writeDifference_st_v (mode : FlagMode) (x : Reg) (a c : Byte) :
    ({ s with st := b }.writeDifference mode x a c).v = (s.writeDifference mode x a c).v := by
  cases mode <;> rfl

theorem State.keyWaitPoll_st (x : Reg) : { s with st := b }.keyWaitPoll x = { s.keyWaitPoll x with st := b } := by
  simp only [State.keyWaitPoll]
  split <;> split <;> rfl

/-- `LD ST, Vx` writes over the timer. -/
theorem effect_ldStVx_st (x : Reg) : effect (.ldStVx x) { s with st := b } = effect (.ldStVx x) s := rfl

theorem effect_st_other (h : ¬ ∃ x, i = .ldStVx x) : effect i { s with st := b } = { effect i s with st := b } := by
  cases i with
  | ldStVx x => exact absurd ⟨x, rfl⟩ h
  | ldVxK x => simp only [effect, State.keyWaitPoll_st]
  | sub | subn => simp only [effect, State.writeDifference_st_v]
  | _ => rfl

end SoundTimer

/-- Settles O43: neither the table of causes nor an effect reads the timer. -/
theorem noInstructionReadsTheSoundTimer : Obligations.NoInstructionReadsTheSoundTimer := by
  unfold Obligations.NoInstructionReadsTheSoundTimer
  intro i s t b h
  have hf := faultOf_st i s b
  obtain ⟨cause, addr, hc, rfl⟩ | ⟨hc, rfl⟩ := exec_cases h
  · have hi : ¬ ∃ x, i = .ldStVx x := by rintro ⟨x, rfl⟩; cases hc
    rw [exec_of_fault (hf.trans hc), if_neg hi]
    rfl
  · rw [exec_of_no_fault (hf.trans hc)]
    split
    · rename_i hx
      obtain ⟨x, rfl⟩ := hx
      rw [effect_ldStVx_st]
    · rw [effect_st_other i s b ‹_›]

end Sys2Proof.Machine
end

section
/-! PROOF. Control transfer, the skips, and the loads and logic (spec/40_flow.md, spec/41_alu.md, and the key skips of
spec/43_keys_timers.md): each from the instruction's effect and its entry in the table of causes. -/

namespace Sys2Proof.Machine

open Sys2Proof.Claims

/-! ## Operands as numbers -/

theorem addrWord_toNat (nnn : Addr) : (addrWord nnn).toNat = nnn.toNat := by
  have hnnn : nnn.toNat < 0x1000 := nnn.isLt
  rw [addrWord, BitVec.toNat_setWidth]
  omega

theorem byteWord_toNat (b : Byte) : (byteWord b).toNat = b.toNat := by
  have hb : b.toNat < 0x100 := b.isLt
  rw [byteWord, BitVec.toNat_setWidth]
  omega

/-- The highest address plus the highest byte is a word, so the sum of `JP V0` does not wrap. -/
theorem addrWord_add_byteWord_toNat (nnn : Addr) (b : Byte) :
    (addrWord nnn + byteWord b).toNat = nnn.toNat + b.toNat := by
  have hnnn : nnn.toNat < 0x1000 := nnn.isLt
  have hb : b.toNat < 0x100 := b.isLt
  rw [BitVec.toNat_add, addrWord_toNat, byteWord_toNat]
  omega

/-! ## The stack -/

section Stack

variable {s : State}

theorem exec_ret_of_entry (h : s.sp.val ≠ 0) : exec .ret s = .next (effect .ret s) :=
  exec_of_no_fault (if_neg h)

theorem exec_call_of_slot (nnn : Addr) (h : s.sp.val ≠ 16) : exec (.call nnn) s = .next (effect (.call nnn) s) :=
  exec_of_no_fault (if_neg h)

theorem stackSlot_eq {n : Nat} {k : Fin 16} (h : n = k.val) : stackSlot n = k :=
  Fin.ext ((stackSlot_val (h ▸ k.isLt)).trans h)

end Stack

/-- Settles O7: with an entry in use there is no fault, and the effect reads the slot below SP. -/
theorem retPopsThePc : Obligations.RetPopsThePc := by
  unfold Obligations.RetPopsThePc
  intro s k hsp
  refine ⟨_, exec_ret_of_entry (by omega), ?_, ?_, rfl⟩
  · change (stackCount (s.sp.val - 1)).val = k.val
    rw [stackCount_val (by omega)]; omega
  · exact congrArg (fun j : Fin 16 => s.stack[j]) (stackSlot_eq (by omega))

/-- Settles O8: with a slot free there is no fault, and the effect writes the slot at SP. -/
theorem callPushesAndJumps : Obligations.CallPushesAndJumps := by
  unfold Obligations.CallPushesAndJumps
  intro nnn s k hsp
  have hslot : stackSlot s.sp.val = k := stackSlot_eq hsp
  have hstack (j : Fin 16) : (effect (.call nnn) s).stack[j] = if j = k then s.pc + 2#16 else s.stack[j] :=
    hslot ▸ getElem_set_fin _ _ _ _
  refine ⟨_, exec_call_of_slot nnn (by omega), ?_, ?_, fun j hj => ?_, addrWord_toNat nnn, rfl⟩
  · exact (stackCount_val (by omega)).trans (by omega)
  · rw [hstack, if_pos rfl]
  · rw [hstack, if_neg hj]

/-- Settles O9: the two entries of the table of causes. -/
theorem stackFaultsChangeNothingElse : Obligations.StackFaultsChangeNothingElse := by
  unfold Obligations.StackFaultsChangeNothingElse
  exact ⟨fun s h => exec_of_fault (if_pos h), fun nnn s h => exec_of_fault (if_pos h)⟩

/-- Settles O10: the pop after the push reads the slot just written, which holds the address after the call. -/
theorem retUndoesCall : Obligations.RetUndoesCall := by
  unfold Obligations.RetUndoesCall
  intro nnn s hsp
  have hpush : (effect (.call nnn) s).sp.val = s.sp.val + 1 := s.advance.pushPc_sp_val hsp
  obtain ⟨hsp', hpc⟩ := s.advance.popPc_pushPc hsp
  refine ⟨_, _, exec_call_of_slot nnn (by omega), exec_ret_of_entry (by omega), ?_⟩
  have hret : effect .ret (effect (.call nnn) s) = { s with
      pc := s.advance.pushPc.popPc.pc, sp := s.advance.pushPc.popPc.sp
      stack := (effect (.call nnn) s).stack } := rfl
  rw [hret, hpc, hsp']
  rfl

/-! ## Jumps and skips -/

/-- Settles O11: the effect of each is its target in the PC. -/
theorem jumpsSetThePc : Obligations.JumpsSetThePc := by
  unfold Obligations.JumpsSetThePc
  exact fun nnn s => ⟨⟨_, exec_of_no_fault rfl, addrWord_toNat nnn, rfl⟩,
    ⟨_, exec_of_no_fault rfl, addrWord_add_byteWord_toNat nnn s.v[0], rfl⟩⟩

/-- Settles O12: none of the four can fault, and the effect of each is the choice of the two addresses. -/
theorem skipsCompareRegisters : Obligations.SkipsCompareRegisters := by
  unfold Obligations.SkipsCompareRegisters
  exact fun x y nn s => ⟨exec_of_no_fault rfl, exec_of_no_fault rfl, exec_of_no_fault rfl, exec_of_no_fault rfl⟩

/-- Settles O24: with an index in range the table of causes has no fault, and the effect is the choice by the key. -/
theorem keySkipsReadTheSampledKey : Obligations.KeySkipsReadTheSampledKey := by
  unfold Obligations.KeySkipsReadTheSampledKey
  exact fun x s h => ⟨exec_of_no_fault (if_neg (by omega)), exec_of_no_fault (if_neg (by omega))⟩

/-- Settles O25: the two entries of the table of causes. -/
theorem keyIndexAbove15Faults : Obligations.KeyIndexAbove15Faults := by
  unfold Obligations.KeyIndexAbove15Faults
  exact fun x s h => ⟨exec_of_fault (if_pos h), exec_of_fault (if_pos h)⟩

/-! ## Loads, logic, immediate addition and random -/

/-- Settles O13: none of the five can fault, and the effect of each is one register write. -/
theorem loadsAndLogicWriteVx : Obligations.LoadsAndLogicWriteVx := by
  unfold Obligations.LoadsAndLogicWriteVx
  exact fun x y nn s => ⟨exec_of_no_fault rfl, exec_of_no_fault rfl, exec_of_no_fault rfl, exec_of_no_fault rfl,
    exec_of_no_fault rfl⟩

/-- Settles O14: the byte written is the sum of two bytes, which wraps. -/
theorem addImmediateWrapsWithoutFlag : Obligations.AddImmediateWrapsWithoutFlag := by
  unfold Obligations.AddImmediateWrapsWithoutFlag
  exact fun x nn s => ⟨s.v[x] + nn, BitVec.toNat_add _ _, exec_of_no_fault rfl⟩

/-- Settles O20: a byte masked with `NN` and then with its complement is 0. -/
theorem randomByteIsMasked : Obligations.RandomByteIsMasked := by
  unfold Obligations.RandomByteIsMasked
  intro x nn s
  refine ⟨s.ports.rnd &&& nn, rfl, ?_, exec_of_no_fault rfl⟩
  rw [BitVec.and_assoc, BitVec.and_not_self]
  exact BitVec.and_zero

/-! ## Subtraction in both flag modes -/

/-- The difference of two bytes, read as an integer, is the remainder modulo 256. -/
theorem sub_toNat_int (a b : Byte) : ((a - b).toNat : Int) = ((a.toNat : Int) - b.toNat) % 256 := by
  have ha : a.toNat < 256 := a.isLt
  have hb : b.toNat < 256 := b.isLt
  rw [BitVec.toNat_sub]
  omega

/-- A byte read as signed is not negative exactly when it is below 128. -/
theorem resultSignFlag_eq (a b : Byte) : resultSignFlag (a - b) = DifferenceFlag .resultSign a.toNat b.toNat := by
  have h : 0 ≤ (a - b).toInt ↔ ((a.toNat : Int) - b.toNat) % 256 < 128 := by
    rw [BitVec.toInt_eq_toNat_cond, ← sub_toNat_int]
    have := (a - b).isLt
    split <;> omega
  simp only [resultSignFlag, flagByte, DifferenceFlag, decide_eq_true_eq, h]

theorem noBorrowFlag_eq (a b : Byte) : noBorrowFlag a b = DifferenceFlag .noBorrow a.toNat b.toNat := by
  simp only [noBorrowFlag, flagByte, DifferenceFlag, decide_eq_true_eq]

section Difference

variable (s : State) (x : Reg)

theorem State.resultThenFlag_v_flag (result flag : Byte) : (s.resultThenFlag x result flag).v[flagReg] = flag :=
  (s.getV_resultThenFlag x flagReg result flag).trans (if_pos rfl)

theorem State.resultThenFlag_v_result (result flag : Byte) (hx : x ≠ flagReg) :
    (s.resultThenFlag x result flag).v[x] = result :=
  (s.getV_resultThenFlag x x result flag).trans ((if_neg hx).trans (if_pos rfl))

theorem State.writeDifference_v_result (mode : FlagMode) (a b : Byte) (hx : x ≠ flagReg) :
    (s.writeDifference mode x a b).v[x] = a - b := by
  cases mode with
  | resultSign => exact s.resultThenFlag_v_result x _ _ hx
  | noBorrow => exact s.flagThenResult_v_result x _ _

theorem State.writeDifference_v_flag (mode : FlagMode) (a b : Byte) (hx : x ≠ flagReg) :
    (s.writeDifference mode x a b).v[flagReg] = DifferenceFlag mode a.toNat b.toNat := by
  cases mode with
  | resultSign => exact (s.resultThenFlag_v_flag x _ _).trans (resultSignFlag_eq a b)
  | noBorrow => exact (s.flagThenResult_v_flag x _ _ hx).trans (noBorrowFlag_eq a b)

/-- What the model's subtraction writes is what the statements call subtracted: with `x = 15` the write that comes
second survives. -/
theorem subtracted_writeDifference (mode : FlagMode) (a b : Byte) :
    Subtracted mode x a b s { s with pc := s.pc + 2#16, v := (s.writeDifference mode x a b).v } := by
  refine ⟨rfl, fun r hx hf => s.writeDifference_v_other mode a b hx hf, fun hx => ⟨?_, ?_⟩, ?_, ?_⟩
  · change ((s.writeDifference mode x a b).v[x].toNat : Int) = _
    rw [s.writeDifference_v_result x mode a b hx, sub_toNat_int]
  · exact s.writeDifference_v_flag x mode a b hx
  · rintro rfl rfl
    exact (s.resultThenFlag_v_flag _ _ _).trans (resultSignFlag_eq a b)
  · rintro rfl rfl
    change ((s.flagThenResult 15 (noBorrowFlag a b) (a - b)).v[(15 : Reg)].toNat : Int) = _
    rw [s.flagThenResult_v_result, sub_toNat_int]

end Difference

/-- Settles O16: `SUB` cannot fault, and what it writes is the difference with its flag. -/
theorem subSubtractsInBothModes : Obligations.SubSubtractsInBothModes := by
  unfold Obligations.SubSubtractsInBothModes
  exact fun x y s => ⟨_, exec_of_no_fault rfl, subtracted_writeDifference s x _ _ _⟩

/-- Settles O17: the operands are those of `SUB` the other way round. -/
theorem subnSubtractsInBothModes : Obligations.SubnSubtractsInBothModes := by
  unfold Obligations.SubnSubtractsInBothModes
  exact fun x y s => ⟨_, exec_of_no_fault rfl, subtracted_writeDifference s x _ _ _⟩

/-- The sign of the wrapped difference tells the borrow exactly when the difference itself is a signed byte. -/
theorem differenceFlag_eq_iff {a b : Nat} (ha : a < 256) (hb : b < 256) :
    DifferenceFlag .resultSign a b = DifferenceFlag .noBorrow a b ↔
      -128 ≤ (a : Int) - b ∧ (a : Int) - b ≤ 127 := by
  have h10 : (0x01#8 : Byte) ≠ 0x00#8 := by decide
  simp only [DifferenceFlag]
  split <;> split <;> simp only [h10, h10.symm, true_iff, false_iff] <;> omega

/-- Settles O18: with `x` other than 15 VF is the flag of the mode. -/
theorem flagModesAgreeOnSmallDifferences : Obligations.FlagModesAgreeOnSmallDifferences := by
  unfold Obligations.FlagModesAgreeOnSmallDifferences
  intro x y s t u hx ht hu
  rw [exec_of_no_fault rfl] at ht hu
  cases ht
  cases hu
  have hflag (mode : FlagMode) :=
    State.writeDifference_v_flag { s with params := { s.params with subFlag := mode } } x mode s.v[x] s.v[y] hx
  exact (iff_of_eq (congrArg₂ Eq (hflag .resultSign) (hflag .noBorrow))).trans
    (differenceFlag_eq_iff s.v[x].isLt s.v[y].isLt)

end Sys2Proof.Machine
end

section
/-! PROOF. The index register and the memory transfers of spec/44_index_memory.md, with the coherence of the fetch
(spec/20_memory.md R71). -/

namespace Sys2Proof.Machine

open Sys2Proof.Claims

/-! ## The index register -/

/-- The highest glyph address, that of `V[x] = 255`, is a word, so the product does not wrap. -/
theorem byteWord_mul_five_toNat (b : Byte) : (byteWord b * 5#16).toNat = b.toNat * 5 := by
  have hb : b.toNat < 0x100 := b.isLt
  rw [BitVec.toNat_mul, byteWord_toNat, BitVec.toNat_ofNat]
  omega

/-- Settles O29: none of the three can fault, and the effect of each is its value in `I`. -/
theorem indexInstructionsSetI : Obligations.IndexInstructionsSetI := by
  unfold Obligations.IndexInstructionsSetI
  intro nnn x s
  refine ⟨⟨_, exec_of_no_fault rfl, addrWord_toNat nnn, rfl⟩, ⟨_, exec_of_no_fault rfl, ?_, rfl⟩,
    ⟨_, exec_of_no_fault rfl, byteWord_mul_five_toNat s.v[x], rfl⟩⟩
  change (s.idx + byteWord s.v[x]).toNat = _
  rw [BitVec.toNat_add, byteWord_toNat]

/-- The block transfers leave `I` after the last byte, without wrapping when that byte is in memory. -/
theorem idx_add_count_toNat {s : State} {x : Reg} (h : s.idx.toNat + x.val ≤ 0x0FFF) :
    (s.idx + BitVec.ofNat 16 (x.val + 1)).toNat = s.idx.toNat + x.val + 1 := by
  rw [BitVec.toNat_add, BitVec.toNat_ofNat]
  omega

/-! ## Stores -/

section Stores

variable {s : State} {x : Reg}

theorem exec_ldB_of_inside (h : s.idx.toNat + 2 ≤ 0x0FFF) : exec (.ldB x) s = .next (effect (.ldB x) s) :=
  exec_of_no_fault (if_neg (by omega))

theorem exec_ldMemVx_of_inside (h : s.idx.toNat + x.val ≤ 0x0FFF) :
    exec (.ldMemVx x) s = .next (effect (.ldMemVx x) s) :=
  exec_of_no_fault (if_neg (by omega))

theorem exec_ldVxMem_of_inside (h : s.idx.toNat + x.val ≤ 0x0FFF) :
    exec (.ldVxMem x) s = .next (effect (.ldVxMem x) s) :=
  exec_of_no_fault (if_neg (by omega))

theorem effect_ldB_readByte_digit {k : Nat} (hk : k < (decimalDigits s.v[x]).length) :
    (effect (.ldB x) s).readByte (s.idx.toNat + k) = (decimalDigits s.v[x])[k] := by
  refine (Memory.read_writeBytes _ _ _ _ _).trans ?_
  rw [dif_pos (by omega)]
  simp only [Nat.add_sub_cancel_left]

theorem effect_ldB_readByte_of_outside {a : Nat} (h : a < s.idx.toNat ∨ s.idx.toNat + 2 < a) :
    (effect (.ldB x) s).readByte a = s.readByte a := by
  refine (Memory.read_writeBytes _ _ _ _ _).trans (dif_neg ?_)
  have hlen : (decimalDigits s.v[x]).length = 3 := rfl
  omega

theorem effect_ldMemVx_readByte_of_outside {a : Nat} (h : a < s.idx.toNat ∨ s.idx.toNat + x.val < a) :
    (effect (.ldMemVx x) s).readByte a = s.readByte a := by
  refine (Memory.read_writeBytes _ _ _ _ _).trans (dif_neg ?_)
  rw [State.length_regsUpTo]
  omega

theorem effect_ldMemVx_readByte {r : Reg} (h : r ≤ x) :
    (effect (.ldMemVx x) s).readByte (s.idx.toNat + r.val) = s.v[r] := by
  refine (Memory.read_writeBytes _ _ _ _ _).trans ?_
  have hr : r.val ≤ x.val := h
  rw [dif_pos (by rw [State.length_regsUpTo]; omega), State.getElem_regsUpTo]
  simp only [Nat.add_sub_cancel_left, regNumber_of_reg, State.getV]

end Stores

/-- Settles O30: the three digits are bytes, and they are written from `I` up. -/
theorem decimalDigitsAreStored : Obligations.DecimalDigitsAreStored := by
  unfold Obligations.DecimalDigitsAreStored
  intro x s h
  have hv : s.v[x].toNat < 256 := s.v[x].isLt
  have hlen : (decimalDigits s.v[x]).length = 3 := rfl
  refine ⟨_, exec_ldB_of_inside h, ?_, ?_, ?_, fun a => effect_ldB_readByte_of_outside, rfl⟩
  · refine (congrArg BitVec.toNat (effect_ldB_readByte_digit (k := 0) (by omega))).trans ?_
    exact (BitVec.toNat_ofNat _ _).trans (Nat.mod_eq_of_lt (by omega))
  · refine (congrArg BitVec.toNat (effect_ldB_readByte_digit (k := 1) (by omega))).trans ?_
    exact (BitVec.toNat_ofNat _ _).trans (Nat.mod_eq_of_lt (by omega))
  · refine (congrArg BitVec.toNat (effect_ldB_readByte_digit (k := 2) (by omega))).trans ?_
    exact (BitVec.toNat_ofNat _ _).trans (Nat.mod_eq_of_lt (by omega))

/-- Settles O31: the registers are written from `I` up. -/
theorem registersAreStoredFromI : Obligations.RegistersAreStoredFromI := by
  unfold Obligations.RegistersAreStoredFromI
  exact fun x s h => ⟨_, exec_ldMemVx_of_inside h, fun r => effect_ldMemVx_readByte,
    fun a => effect_ldMemVx_readByte_of_outside, idx_add_count_toNat h, rfl⟩

/-! ## Loads -/

/-- Settles O32: the registers up to `x` are read from `I` up, with the `I` before the instruction. -/
theorem registersAreLoadedFromI : Obligations.RegistersAreLoadedFromI := by
  unfold Obligations.RegistersAreLoadedFromI
  exact fun x s h => ⟨_, exec_ldVxMem_of_inside h, fun r hr => (s.loadedRegs_getElem x r _).trans (if_pos hr),
    fun r hr => (s.loadedRegs_getElem x r _).trans (if_neg (Fin.not_le.mpr hr)), idx_add_count_toNat h, rfl⟩

/-- Settles O34: a load reads memory and `I` alone, so it reads the bytes the store wrote. -/
theorem loadBringsBackWhatWasStored : Obligations.LoadBringsBackWhatWasStored := by
  unfold Obligations.LoadBringsBackWhatWasStored
  intro x s w h
  obtain ⟨t, ht, hstored, -⟩ := registersAreStoredFromI x s h
  obtain ⟨u, hu, hlow, hhigh, -, hframe⟩ := registersAreLoadedFromI x { t with v := w, idx := s.idx } h
  refine ⟨t, u, ht, hu, fun r hr => (hlow r hr).trans (hstored r hr), hhigh, ?_⟩
  rw [hframe]

/-! ## Faults and fetches -/

/-- Settles O33: the four entries of the table of causes. -/
theorem dataAccessOutsideMemoryFaults : Obligations.DataAccessOutsideMemoryFaults := by
  unfold Obligations.DataAccessOutsideMemoryFaults
  intro x y n s
  refine ⟨fun hn h => exec_of_fault (if_pos ⟨?_, h⟩), fun h => exec_of_fault (if_pos h),
    fun h => ⟨exec_of_fault (if_pos h), exec_of_fault (if_pos h)⟩⟩
  exact Nat.pos_of_ne_zero fun h0 => hn (BitVec.eq_of_toNat_eq h0)

/-- Settles O35: the next instruction is at `I`, where the store put `V[0]` and then `V[1]`. -/
theorem storeIsSeenByTheNextFetch : Obligations.StoreIsSeenByTheNextFetch := by
  unfold Obligations.StoreIsSeenByTheNextFetch
  intro x s hx hidx h
  obtain ⟨t, ht, hstored, -, -, hframe⟩ := registersAreStoredFromI x s h
  have hpc : t.pc = s.pc + 2#16 := by rw [hframe]
  have hpcIdx : t.pc.toNat = s.idx.toNat := by
    rw [hpc, BitVec.toNat_add, BitVec.toNat_ofNat]
    omega
  have h0 : t.readByte t.pc.toNat = s.v[0] := by
    rw [hpcIdx]
    exact hstored 0 (Fin.zero_le x)
  have h1 : t.readByte (t.pc.toNat + 1) = s.v[1] := by
    rw [hpcIdx]
    exact hstored 1 hx
  refine ⟨t, ht, hpc, h0, h1, ?_⟩
  rw [State.fetchWord, h0, h1, wordOf]

end Sys2Proof.Machine
end

section
/-! PROOF. Drawing (spec/42_display.md R171 to R173): the sprite's pixels are toggled, and drawn twice they are as they
were. -/

namespace Sys2Proof.Machine

open Sys2Proof.Claims

/-! ## The pixels of a sprite -/

theorem rowCovers_iff (vx : Nat) (b : Byte) (x : Fin 64) :
    rowCovers vx b (List.range 8) x = true ↔ ∃ c < 8, b.getLsbD (7 - c) = true ∧ (vx + c) % 64 = x.val := by
  simp only [rowCovers, List.any_eq_true, List.mem_range, Bool.and_eq_true, decide_eq_true_eq, Fin.ext_iff,
    screenColumn_val, eq_comm (a := x.val)]

theorem spriteCovers_iff (vx vy : Nat) (bs : List Byte) (x : Fin 64) (y : Fin 32) :
    spriteCovers vx vy bs x y = true ↔
      ∃ (r : Nat) (h : r < bs.length), rowCovers vx bs[r] (List.range 8) x = true ∧ (vy + r) % 32 = y.val := by
  induction bs generalizing vy with
  | nil => simp [spriteCovers]
  | cons b bs ih =>
    simp only [spriteCovers, Bool.or_eq_true, Bool.and_eq_true, decide_eq_true_eq, ih, List.length_cons]
    constructor
    · rintro (⟨hrow, hy⟩ | ⟨r, hr, hrow, hy⟩)
      · exact ⟨0, by omega, hrow, by rw [hy]; rfl⟩
      · exact ⟨r + 1, by omega, hrow, by omega⟩
    · rintro ⟨r, hr, hrow, hy⟩
      cases r with
      | zero => exact .inl ⟨hrow, Fin.ext hy.symm⟩
      | succ r => exact .inr ⟨r, by omega, hrow, by omega⟩

/-- The statements' sprite is the one the drawing covers. -/
theorem spriteCovers_iff_spriteOn (s : State) (vx vy n : Nat) (x : Fin 64) (y : Fin 32) :
    spriteCovers vx vy (s.readBytes s.idx.toNat n) x y = true ↔ SpriteOn s vx vy n x y := by
  simp only [spriteCovers_iff, rowCovers_iff, SpriteOn, State.length_readBytes, State.getElem_readBytes]
  constructor
  · rintro ⟨r, hr, ⟨c, hc, hbit, hx⟩, hy⟩
    exact ⟨r, c, hr, hc, hx, hy, hbit⟩
  · rintro ⟨r, c, hr, hc, hx, hy, hbit⟩
    exact ⟨r, hr, ⟨c, hc, hbit, hx⟩, hy⟩

/-- A set bit of the sprite falls on some pixel, as both coordinates wrap. -/
theorem exists_spriteOn_iff (s : State) (vx vy n : Nat) : (∃ x y, SpriteOn s vx vy n x y) ↔
    ∃ r c : Nat, r < n ∧ c < 8 ∧ (s.readByte (s.idx.toNat + r)).getLsbD (7 - c) = true := by
  constructor
  · rintro ⟨x, y, r, c, hr, hc, -, -, hbit⟩
    exact ⟨r, c, hr, hc, hbit⟩
  · rintro ⟨r, c, hr, hc, hbit⟩
    exact ⟨screenColumn (vx + c), screenRow (vy + r), r, c, hr, hc, rfl, rfl, hbit⟩

/-! ## One draw -/

section Draw

variable {s : State} {x y : Reg} {n : Nibble}

theorem exec_drw_of_inside (h : n = 0#4 ∨ s.idx.toNat + n.toNat - 1 ≤ 0x0FFF) :
    exec (.drw x y n) s = .next (effect (.drw x y n) s) := by
  refine exec_of_no_fault (if_neg ?_)
  rintro ⟨hpos, hout⟩
  obtain rfl | hin := h
  · exact absurd hpos (by decide)
  · omega

/-- A sprite has at most 15 rows, so none of them wraps onto another. -/
theorem length_spriteBytes_le (s : State) (n : Nibble) : (s.readBytes s.idx.toNat n.toNat).length ≤ 32 := by
  have hn : n.toNat < 16 := n.isLt
  rw [State.length_readBytes]
  omega

theorem effect_drw_pixel (px : Fin 64) (py : Fin 32) : pixel (effect (.drw x y n) s).fb px py =
    (pixel s.fb px py ^^ spriteCovers s.v[x].toNat s.v[y].toNat (s.readBytes s.idx.toNat n.toNat) px py) :=
  pixel_drawRows _ _ _ (length_spriteBytes_le s n) (s.fb, false) px py

theorem spriteDrawing_collision_iff : (s.spriteDrawing s.v[x].toNat s.v[y].toNat n.toNat).2 = true ↔
    ∃ px py, SpriteOn s s.v[x].toNat s.v[y].toNat n.toNat px py ∧ s.fb[px][py] = true := by
  refine (collision_drawRows _ _ _ (length_spriteBytes_le s n) (s.fb, false)).trans ?_
  simp only [spriteCovers_iff_spriteOn, Bool.false_eq_true, false_or]
  rfl

theorem effect_drw_flag : (effect (.drw x y n) s).v[flagReg] =
    flagByte (s.spriteDrawing s.v[x].toNat s.v[y].toNat n.toNat).2 :=
  (getElem_set_fin _ _ _ _).trans (if_pos rfl)

end Draw

/-- Settles O22: the drawing toggles the pixels the sprite covers, and its collision is a covered pixel that was on. -/
theorem drawTogglesExactlyTheSprite : Obligations.DrawTogglesExactlyTheSprite := by
  unfold Obligations.DrawTogglesExactlyTheSprite
  intro x y n s h
  refine ⟨_, exec_drw_of_inside h, fun px py => ⟨fun hon => ?_, fun hoff => ?_⟩, fun hc => ?_, fun hc => ?_,
    fun r hr => set_other hr, rfl⟩
  · refine (effect_drw_pixel px py).trans ?_
    rw [(spriteCovers_iff_spriteOn _ _ _ _ _ _).mpr hon, Bool.xor_true]
    rfl
  · refine (effect_drw_pixel px py).trans ?_
    rw [Bool.eq_false_iff.mpr fun hcov => hoff ((spriteCovers_iff_spriteOn _ _ _ _ _ _).mp hcov), Bool.xor_false]
    rfl
  · refine effect_drw_flag.trans ?_
    rw [spriteDrawing_collision_iff.mpr hc, flagByte_true]
  · refine effect_drw_flag.trans ?_
    rw [Bool.eq_false_iff.mpr fun hcol => hc (spriteDrawing_collision_iff.mp hcol), flagByte_false]

/-! ## Two draws -/

theorem framebuffer_ext {fb fb' : Framebuffer} (h : ∀ (x : Fin 64) (y : Fin 32), fb[x][y] = fb'[x][y]) : fb = fb' :=
  Vector.ext fun x hx => Vector.ext fun y hy => h ⟨x, hx⟩ ⟨y, hy⟩

/-- Settles O23: the second draw has the first one's sprite, and what is toggled twice is as it was; when the first draw
met no pixel that was on, it turned all the sprite's pixels on, and the second meets them. -/
theorem drawingTwiceRestoresTheScreen : Obligations.DrawingTwiceRestoresTheScreen := by
  unfold Obligations.DrawingTwiceRestoresTheScreen
  intro x y n s t u h ht hx hy hu
  obtain ⟨t', ht', hfb, hhit, -, -, hframe⟩ := drawTogglesExactlyTheSprite x y n s h
  cases ht'.symm.trans ht
  have hidx : t.idx = s.idx := by rw [hframe]
  have hsprite (px : Fin 64) (py : Fin 32) : SpriteOn t t.v[x].toNat t.v[y].toNat n.toNat px py ↔
      SpriteOn s s.v[x].toNat s.v[y].toNat n.toNat px py := by
    rw [hx, hy, hframe]; rfl
  obtain ⟨u', hu', hfb', hhit', hmiss', -, -⟩ := drawTogglesExactlyTheSprite x y n t (hidx ▸ h)
  cases hu'.symm.trans hu
  refine ⟨framebuffer_ext fun px py => ?_, fun hclear => ?_⟩
  · by_cases hon : SpriteOn s s.v[x].toNat s.v[y].toNat n.toNat px py
    · rw [(hfb' px py).1 ((hsprite px py).mpr hon), (hfb px py).1 hon, Bool.not_not]
    · rw [(hfb' px py).2 fun h => hon ((hsprite px py).mp h), (hfb px py).2 hon]
  · have hoff : ∀ px py, SpriteOn s s.v[x].toNat s.v[y].toNat n.toNat px py → s.fb[px][py] = false := by
      intro px py hon
      refine Bool.eq_false_iff.mpr fun hpx => ?_
      rw [hhit ⟨px, py, hon, hpx⟩] at hclear
      exact absurd hclear (by decide)
    rw [← exists_spriteOn_iff s s.v[x].toNat s.v[y].toNat]
    constructor
    · intro hset
      by_contra hnone
      rw [hmiss' fun ⟨px, py, hon, _⟩ => hnone ⟨px, py, (hsprite px py).mp hon⟩] at hset
      exact absurd hset (by decide)
    · rintro ⟨px, py, hon⟩
      refine hhit' ⟨px, py, (hsprite px py).mpr hon, ?_⟩
      rw [(hfb px py).1 hon, hoff px py hon, Bool.not_false]

end Sys2Proof.Machine
end

section
/-! PROOF. The key wait (spec/43_keys_timers.md R183), the CPU tick (spec/30_encoding.md R90) and the two ticks in which
the wait is over. -/

namespace Sys2Proof.Machine

open Sys2Proof.Claims

/-! ## The lowest pressed key -/

theorem lowestKey_eq {keys : BitVec 16} {k : Nat} (h : LowestPressed keys k) : lowestKey keys = BitVec.ofNat 4 k := by
  obtain ⟨hk, hpressed, hlower⟩ := h
  have hfind : (List.range 16).find? (fun i => keys.getLsbD i) = some k :=
    List.find?_range_eq_some.mpr ⟨hpressed, List.mem_range.mpr hk, fun j hj => by simp [hlower j hj]⟩
  rw [lowestKey, hfind, Option.getD_some]

theorem keys_ne_zero {keys : BitVec 16} {k : Nat} (h : LowestPressed keys k) : keys ≠ 0#16 := by
  obtain ⟨-, hpressed, -⟩ := h
  rintro rfl
  rw [BitVec.getLsbD_zero] at hpressed
  cases hpressed

/-! ## One poll -/

section Poll

variable {s : State} {x : Reg}

theorem exec_ldVxK (x : Reg) (s : State) : exec (.ldVxK x) s = .next (s.keyWaitPoll x) :=
  (exec_of_no_fault rfl).trans (congrArg _ (s.keyWaitPoll_eq x).symm)

theorem State.keyWaitPoll_of_idle (hw : s.kwWaiting = false) (hk : s.ports.keys = 0#16) : s.keyWaitPoll x = s := by
  simp [State.keyWaitPoll, hw, hk]

theorem State.keyWaitPoll_of_pressed {k : Nat} (hw : s.kwWaiting = false) (hk : LowestPressed s.ports.keys k) :
    s.keyWaitPoll x = { s with kwWaiting := true, kwReg := x, kwKey := BitVec.ofNat 4 k } := by
  simp [State.keyWaitPoll, hw, keys_ne_zero hk, lowestKey_eq hk]

theorem State.keyWaitPoll_of_held (hw : s.kwWaiting = true) (hk : s.ports.keys.getLsbD s.kwKey.toNat = true) :
    s.keyWaitPoll x = s := by
  simp [State.keyWaitPoll, hw, hk]

theorem State.keyWaitPoll_of_released (hw : s.kwWaiting = true)
    (hk : s.ports.keys.getLsbD s.kwKey.toNat = false) :
    s.keyWaitPoll x =
      { s with pc := s.pc + 2#16, kwWaiting := false, v := s.v.set s.kwReg (s.kwKey.setWidth 8) } := by
  simp [State.keyWaitPoll, hw, hk]

end Poll

/-- Settles O27: the instruction cannot fault, and its effect is the poll, which has the four cases. -/
theorem keyWaitPolls : Obligations.KeyWaitPolls := by
  unfold Obligations.KeyWaitPolls
  intro x s
  simp only [exec_ldVxK]
  exact ⟨fun hw hk => by rw [State.keyWaitPoll_of_idle hw hk],
    fun k hw hk => by rw [State.keyWaitPoll_of_pressed hw hk],
    fun hw hk => by rw [State.keyWaitPoll_of_held hw hk],
    fun hw hk => by rw [State.keyWaitPoll_of_released hw hk]⟩

/-! ## The CPU tick -/

section CpuTick

variable {s : State}

theorem step_of_cpuTick (h : s.nextAction = .cpuTick) : step s = cpuTick s.enterTick := by
  rw [step, runAction, h]

/-- What entering a tick changes: the host's side alone. -/
theorem State.enterTick_eq (s : State) : s.enterTick = { s with
    agenda := s.takeEvent.agenda, timeNs := s.takeEvent.timeNs, cpuMarker := s.takeEvent.cpuMarker
    dispMarker := s.takeEvent.dispMarker, freeTicks := s.takeEvent.freeTicks, render := false, buzz := false
    ports := s.enterTick.ports, inputs := s.enterTick.inputs, draws := s.enterTick.draws } := by
  rw [State.mk.injEq]
  simp

theorem cpuTick_of_inside (hr : s.status = .running) (hpc : s.pc.toNat ≤ lastFetchPc) :
    cpuTick s = exec (decode s.fetchWord) s := by
  rw [cpuTick, if_neg (not_not.mpr hr), if_neg (Nat.not_lt.mpr hpc)]

theorem cpuTick_of_outside (hr : s.status = .running) (hpc : lastFetchPc < s.pc.toNat) :
    cpuTick s = .next (s.takeFault .fetchRangeFault (firstOutOfRange s.pc.toNat)) := by
  rw [cpuTick, if_neg (not_not.mpr hr), if_pos hpc]

end CpuTick

/-- Settles O44: entering the tick leaves the status, the PC and the fetched word. -/
theorem stepRunsTheDecodedInstruction : Obligations.StepRunsTheDecodedInstruction := by
  unfold Obligations.StepRunsTheDecodedInstruction
  rintro s i hact hr hpc rfl
  refine ⟨?_, s.enterTick_eq⟩
  rw [step_of_cpuTick hact, cpuTick_of_inside (s.enterTick_status.trans hr) (s.enterTick_pc.symm ▸ hpc),
    s.enterTick_fetchWord]
  rfl

/-- The lowest address outside memory of a fetch: 0x1000 when its first byte is the last in memory. -/
theorem firstOutOfRange_of_fetch {pc : Word} (h : 0x0FFE < pc.toNat) :
    firstOutOfRange pc.toNat = if pc = 0x0FFF#16 then 0x1000#17 else pc.setWidth 17 := by
  rw [firstOutOfRange_eq, LowestOutOfRange]
  have hiff : pc.toNat ≤ 0x0FFF ↔ pc = 0x0FFF#16 := by rw [← BitVec.toNat_inj, BitVec.toNat_ofNat]; omega
  simp only [hiff]

/-- Settles O45: the fault is taken in the state the tick is entered in, whose PC is that before the step. -/
theorem fetchOutsideMemoryFaults : Obligations.FetchOutsideMemoryFaults := by
  unfold Obligations.FetchOutsideMemoryFaults
  intro s hact hr hpc
  rw [step_of_cpuTick hact, cpuTick_of_outside (s.enterTick_status.trans hr) (s.enterTick_pc.symm ▸ hpc),
    s.enterTick_pc, firstOutOfRange_of_fetch hpc]
  rfl

/-! ## The wait in two ticks -/

section TwoTicks

variable {s : State} {x : Reg} {k : Nat}

/-- A tick at a `LD Vx, K` is one poll in the state the tick is entered in. -/
theorem step_of_ldVxK {rest : List Event} (hr : s.status = .running) (hagenda : s.agenda = .cpuTick :: rest)
    (hpc : s.pc.toNat ≤ 0x0FFE)
    (hdecode : decode (s.readByte s.pc.toNat ++ s.readByte (s.pc.toNat + 1)) = .ldVxK x) :
    step s = .next (s.enterTick.keyWaitPoll x) :=
  (stepRunsTheDecodedInstruction s _ (s.nextAction_of_cpuTick hagenda) hr hpc hdecode).1.trans (exec_ldVxK x _)

/-- The first tick: a key is pressed and noted, and the PC stays at the instruction. -/
theorem step_of_pressed {p : Ports} {ps : List Ports} {rest : List Event} (hr : s.status = .running)
    (hagenda : s.agenda = .cpuTick :: rest) (hinputs : s.inputs = p :: ps) (hpc : s.pc.toNat ≤ 0x0FFE)
    (hdecode : decode (s.readByte s.pc.toNat ++ s.readByte (s.pc.toNat + 1)) = .ldVxK x)
    (hw : s.kwWaiting = false) (hk : LowestPressed p.keys k) :
    ∃ t, step s = .next t ∧ t.status = .running ∧ t.agenda = rest ∧ t.inputs = ps ∧ t.pc = s.pc ∧
      (∀ a, t.readByte a = s.readByte a) ∧ t.v = s.v ∧ t.kwWaiting = true ∧ t.kwReg = x ∧
      t.kwKey = BitVec.ofNat 4 k := by
  obtain ⟨hports, hrest⟩ := s.enterTick_ports_of_inputs hinputs
  refine ⟨_, step_of_ldVxK hr hagenda hpc hdecode, ?_⟩
  rw [State.keyWaitPoll_of_pressed (s.enterTick_kwWaiting.trans hw) (hports.symm ▸ hk)]
  exact ⟨s.enterTick_status.trans hr, by simp [s.takeEvent_of_cpuTick hagenda], hrest, s.enterTick_pc,
    s.enterTick_readByte, s.enterTick_v, rfl, rfl, rfl⟩

/-- The second tick: the noted key is released, and its number is written to the noted register. -/
theorem step_of_released {p : Ports} {ps : List Ports} {rest : List Event} (hr : s.status = .running)
    (hagenda : s.agenda = .cpuTick :: rest) (hinputs : s.inputs = p :: ps) (hpc : s.pc.toNat ≤ 0x0FFE)
    (hdecode : decode (s.readByte s.pc.toNat ++ s.readByte (s.pc.toNat + 1)) = .ldVxK x)
    (hw : s.kwWaiting = true) (hk : p.keys.getLsbD s.kwKey.toNat = false) :
    ∃ t, step s = .next t ∧ t.status = .running ∧ t.pc = s.pc + 2#16 ∧ t.kwWaiting = false ∧
      t.v = s.v.set s.kwReg (s.kwKey.setWidth 8) := by
  obtain ⟨hports, -⟩ := s.enterTick_ports_of_inputs hinputs
  refine ⟨_, step_of_ldVxK hr hagenda hpc hdecode, ?_⟩
  rw [State.keyWaitPoll_of_released (s.enterTick_kwWaiting.trans hw) (by rw [hports, s.enterTick_kwKey, hk])]
  simp [hr]

end TwoTicks

/-- Settles O28: the first poll notes the key and stays at the instruction, the second writes its number. -/
theorem keyWaitEndsTwoTicksAfterAPress : Obligations.KeyWaitEndsTwoTicksAfterAPress := by
  unfold Obligations.KeyWaitEndsTwoTicksAfterAPress
  intro x s p q k hr hagenda hinputs hpc hdecode hw hk hq
  have hkey : (BitVec.ofNat 4 k).toNat = k := (BitVec.toNat_ofNat _ _).trans (Nat.mod_eq_of_lt hk.1)
  obtain ⟨t, hst, hr', hagenda', hinputs', hpc', hread, hv, hw', hreg, hkw⟩ :=
    step_of_pressed hr hagenda hinputs hpc hdecode hw hk
  obtain ⟨u, htu, hru, hpcu, hwu, hvu⟩ := step_of_released (x := x) hr' hagenda' hinputs' (hpc' ▸ hpc)
    (by rw [hread, hread, hpc', hdecode]) hw' (by rw [hkw, hkey, hq])
  simp only [hreg, hkw, hv] at hvu
  refine ⟨u, (run_succ_of_step hst).trans (run_succ_of_step htu), ?_, hwu, hpc' ▸ hpcu, hru, fun r hr => ?_⟩
  · rw [hvu, getElem_set_fin, if_pos rfl, BitVec.toNat_setWidth, hkey]
    have hk16 : k < 16 := hk.1
    omega
  · rw [hvu, set_other hr]

end Sys2Proof.Machine
end

section
/-! PROOF. The display tick (spec/60_exceptions.md R226 to R232): the countdown, the frame, the buzzer, and what a
failing collaborator does. -/

namespace Sys2Proof.Machine

open Sys2Proof.Claims

/-! ## The countdown -/

theorem countDown_toNat (t : Byte) : (countDown t).toNat = t.toNat - 1 := by
  unfold countDown
  split
  · rename_i h; rw [h]; rfl
  · rename_i h
    have hpos : t.toNat ≠ 0 := fun h0 => h (BitVec.eq_of_toNat_eq h0)
    have ht : t.toNat < 256 := t.isLt
    rw [BitVec.toNat_sub, BitVec.toNat_ofNat]
    omega

theorem countDown_eq_zero_iff (t : Byte) : countDown t = 0#8 ↔ ¬ 1 < t.toNat := by
  rw [← BitVec.toNat_inj, countDown_toNat, BitVec.toNat_ofNat]
  omega

/-! ## The display tick by its cases -/

section DisplayTick

variable {s : State}

theorem displayTick_of_ended (h : s.status ≠ .running) : displayTick s = s := if_pos h

/-- R227: the display fails, and the buzzer is not looked at. -/
theorem displayTick_of_renderFail (hr : s.status = .running) (hf : s.ports.renderFail = true) :
    displayTick s = { s with
      dt := countDown s.dt, st := countDown s.st, render := true, status := .stopped
      faultCause := .collaboratorFailure, faultPc := s.pc, faultAddr := 0#17 } := by
  simp [displayTick, hr, hf, State.emitRender, State.countTimers, State.stop]

/-- R228: with the sound timer at 0 the buzzer is silent. -/
theorem displayTick_of_silent (hr : s.status = .running) (hf : s.ports.renderFail = false) (hst : ¬ 1 < s.st.toNat) :
    displayTick s = { s with dt := countDown s.dt, st := countDown s.st, render := true } := by
  have hst := (countDown_eq_zero_iff s.st).mpr hst
  simp [displayTick, hr, hf, hst, State.emitRender, State.countTimers]

theorem displayTick_of_buzz (hr : s.status = .running) (hf : s.ports.renderFail = false) (hst : 1 < s.st.toNat)
    (hb : s.ports.buzzFail = false) :
    displayTick s = { s with dt := countDown s.dt, st := countDown s.st, render := true, buzz := true } := by
  have hst : ¬ countDown s.st = 0#8 := fun h => (countDown_eq_zero_iff s.st).mp h hst
  simp [displayTick, hr, hf, hst, hb, State.emitRender, State.emitBuzz, State.countTimers]

theorem displayTick_of_buzzFail (hr : s.status = .running) (hf : s.ports.renderFail = false) (hst : 1 < s.st.toNat)
    (hb : s.ports.buzzFail = true) :
    displayTick s = { s with
      dt := countDown s.dt, st := countDown s.st, render := true, buzz := true, status := .stopped
      faultCause := .collaboratorFailure, faultPc := s.pc, faultAddr := 0#17 } := by
  have hst : ¬ countDown s.st = 0#8 := fun h => (countDown_eq_zero_iff s.st).mp h hst
  simp [displayTick, hr, hf, hst, hb, State.emitRender, State.emitBuzz, State.countTimers, State.stop]

/-- A display tick writes the timers, the strobes, the status and the record alone; it goes on running with the record
it had, or is stopped by a collaborator, or had ended. -/
theorem displayTick_cases (s : State) :
    displayTick s = { s with
      dt := (displayTick s).dt, st := (displayTick s).st, render := (displayTick s).render
      buzz := (displayTick s).buzz } ∨
    displayTick s = { s with
      dt := (displayTick s).dt, st := (displayTick s).st, render := (displayTick s).render
      buzz := (displayTick s).buzz, status := .stopped, faultCause := .collaboratorFailure, faultPc := s.pc
      faultAddr := 0#17 } := by
  by_cases hr : s.status = .running
  · cases hf : s.ports.renderFail with
    | true => right; rw [displayTick_of_renderFail hr hf]
    | false =>
      by_cases hst : 1 < s.st.toNat
      · cases hb : s.ports.buzzFail with
        | true => right; rw [displayTick_of_buzzFail hr hf hst hb]
        | false => left; rw [displayTick_of_buzz hr hf hst hb]
      · left; rw [displayTick_of_silent hr hf hst]
  · left; rw [displayTick_of_ended hr]

theorem step_of_displayTick (h : s.nextAction = .displayTick) : step s = .next (displayTick s.enterTick) := by
  rw [step, runAction, h]

end DisplayTick

/-- Settles O49: the tick is silent, or buzzes and the sound does not fail. -/
theorem displayTickCountsAndRenders : Obligations.DisplayTickCountsAndRenders := by
  unfold Obligations.DisplayTickCountsAndRenders
  intro s hact hr hf hb
  have hr' := s.enterTick_status.trans hr
  have hdt : (countDown s.enterTick.dt).toNat = s.dt.toNat - 1 := by rw [countDown_toNat, s.enterTick_dt]
  have hst : (countDown s.enterTick.st).toNat = s.st.toNat - 1 := by rw [countDown_toNat, s.enterTick_st]
  have hfb : some s.enterTick.fb = some s.fb := congrArg some s.enterTick_fb
  refine ⟨_, step_of_displayTick hact, ?_⟩
  by_cases hlong : 1 < s.st.toNat
  · have hb : s.enterTick.ports.buzzFail = false := hb.resolve_right (by omega)
    rw [displayTick_of_buzz hr' hf (s.enterTick_st.symm ▸ hlong) hb]
    exact ⟨hdt, hst, hfb, iff_of_true rfl hlong, rfl⟩
  · rw [displayTick_of_silent hr' hf (s.enterTick_st.symm ▸ hlong)]
    exact ⟨hdt, hst, hfb, iff_of_false (by simp) hlong, rfl⟩

/-- Settles O50: the display fails, or the sound does when the buzzer is raised. -/
theorem collaboratorFailureStopsTheRun : Obligations.CollaboratorFailureStopsTheRun := by
  unfold Obligations.CollaboratorFailureStopsTheRun
  intro s hact hr hfail
  have hr' := s.enterTick_status.trans hr
  have hdt : (countDown s.enterTick.dt).toNat = s.dt.toNat - 1 := by rw [countDown_toNat, s.enterTick_dt]
  have hst : (countDown s.enterTick.st).toNat = s.st.toNat - 1 := by rw [countDown_toNat, s.enterTick_st]
  refine ⟨_, step_of_displayTick hact, ?_⟩
  cases hf : s.enterTick.ports.renderFail with
  | true =>
    rw [displayTick_of_renderFail hr' hf, ← s.enterTick_pc]
    exact ⟨rfl, rfl, rfl, rfl, hdt, hst, rfl, by simp, rfl⟩
  | false =>
    obtain ⟨hlong, hb⟩ := hfail.resolve_left (by simp [hf])
    rw [displayTick_of_buzzFail hr' hf (s.enterTick_st.symm ▸ hlong) hb, ← s.enterTick_pc]
    exact ⟨rfl, rfl, rfl, rfl, hdt, hst, rfl, by simp, rfl⟩

/-- Settles O51: each display tick runs on the next sample, which does not fail, and leaves the others in store. -/
theorem timersReachZeroAndStay : Obligations.TimersReachZeroAndStay := by
  unfold Obligations.TimersReachZeroAndStay
  intro n
  induction n with
  | zero => exact fun s hr _ _ _ => ⟨s, rfl, rfl, rfl, hr⟩
  | succ n ih =>
    intro s hr hagenda hinputs hok
    obtain ⟨p, ps, hps⟩ := List.exists_cons_of_length_eq_add_one hinputs
    obtain ⟨hports, hrest⟩ := s.enterTick_ports_of_inputs hps
    obtain ⟨hrender, hbuzz⟩ := hok p (hps ▸ List.mem_cons_self)
    have hagenda : s.agenda = .displayTick :: List.replicate n .displayTick := hagenda
    obtain ⟨t, ht, hdt, hst, -, -, hframe⟩ := displayTickCountsAndRenders s (s.nextAction_of_displayTick hagenda) hr
      (hports ▸ hrender) (.inl (hports ▸ hbuzz))
    obtain ⟨u, hu, hdt', hst', hru⟩ := ih t (by rw [hframe]; exact s.enterTick_status.trans hr)
      (by rw [hframe]; simp [s.takeEvent_of_displayTick hagenda])
      (by rw [hframe]; simpa [hrest, hps] using hinputs)
      (by rw [hframe]; exact fun q hq => hok q (hps ▸ List.mem_cons_of_mem p (hrest ▸ hq)))
    exact ⟨u, (run_succ_of_step ht).trans hu, by omega, by omega, hru⟩

end Sys2Proof.Machine
end

section
/-! PROOF. The host's side of a step (spec/60_exceptions.md R223, R229, R230, R240): what a tick takes from the store
and what it leaves, which steps are refused, and what an ended run does. -/

namespace Sys2Proof.Machine

open Sys2Proof.Claims

/-! ## A tick leaves the host's side as it was when the tick was entered -/

/-- The two states have the same markers, ports, time, parameters and store. -/
structure State.SameHostSide (s t : State) : Prop where
  cpuMarker : t.cpuMarker = s.cpuMarker
  dispMarker : t.dispMarker = s.dispMarker
  ports : t.ports = s.ports
  timeNs : t.timeNs = s.timeNs
  params : t.params = s.params
  agenda : t.agenda = s.agenda
  inputs : t.inputs = s.inputs
  draws : t.draws = s.draws
  freeTicks : t.freeTicks = s.freeTicks

section Ticks

variable {s t : State}

theorem exec_sameHostSide {i : Instr} (h : exec i s = .next t) : s.SameHostSide t := by
  obtain ⟨hcpu, hdisp, -, -, hports, htime, hparams, hagenda, hinputs, hdraws, hfree⟩ :=
    instructionsLeaveTheHostSideAlone i s t h
  exact ⟨hcpu, hdisp, hports, htime, hparams, hagenda, hinputs, hdraws, hfree⟩

theorem cpuTick_sameHostSide (h : cpuTick s = .next t) : s.SameHostSide t := by
  obtain ⟨-, hc⟩ | ⟨-, -, hc⟩ | ⟨-, -, hc⟩ := cpuTick_cases s
  · cases hc.symm.trans h; exact ⟨rfl, rfl, rfl, rfl, rfl, rfl, rfl, rfl, rfl⟩
  · cases hc.symm.trans h; exact ⟨rfl, rfl, rfl, rfl, rfl, rfl, rfl, rfl, rfl⟩
  · exact exec_sameHostSide (hc.symm.trans h)

theorem displayTick_sameHostSide (s : State) : s.SameHostSide (displayTick s) := by
  obtain h | h := displayTick_cases s
  · rw [h]; exact ⟨rfl, rfl, rfl, rfl, rfl, rfl, rfl, rfl, rfl⟩
  · rw [h]; exact ⟨rfl, rfl, rfl, rfl, rfl, rfl, rfl, rfl, rfl⟩

/-- A CPU tick always answers a next state, as every instruction does. -/
theorem exists_cpuTick (s : State) : ∃ t, cpuTick s = .next t := by
  obtain ⟨-, h⟩ | ⟨-, -, h⟩ | ⟨-, -, h⟩ := cpuTick_cases s
  · exact ⟨_, h⟩
  · exact ⟨_, h⟩
  · exact ⟨_, h.trans (exec_eq _ _)⟩

/-- A step that is a tick answers a next state, with the host's side of the state it was entered in. -/
theorem exists_step_of_tick (h : s.nextAction = .cpuTick ∨ s.nextAction = .displayTick) :
    ∃ t, step s = .next t ∧ s.enterTick.SameHostSide t := by
  obtain h | h := h
  · obtain ⟨t, ht⟩ := exists_cpuTick s.enterTick
    exact ⟨t, (step_of_cpuTick h).trans ht, cpuTick_sameHostSide ht⟩
  · exact ⟨_, step_of_displayTick h, displayTick_sameHostSide _⟩

theorem sameHostSide_of_step (h : s.nextAction = .cpuTick ∨ s.nextAction = .displayTick) (ht : step s = .next t) :
    s.enterTick.SameHostSide t := by
  obtain ⟨t', ht', hsame⟩ := exists_step_of_tick h
  cases ht'.symm.trans ht
  exact hsame

/-- The markers, the time and the store after a tick are what taking the event left. -/
theorem hostSide_of_tick (h : s.nextAction = .cpuTick ∨ s.nextAction = .displayTick) (ht : step s = .next t) :
    t.agenda = s.takeEvent.agenda ∧ t.freeTicks = s.takeEvent.freeTicks ∧ t.timeNs = s.takeEvent.timeNs ∧
      t.cpuMarker = s.takeEvent.cpuMarker ∧ t.dispMarker = s.takeEvent.dispMarker ∧ t.params = s.params := by
  have hsame := sameHostSide_of_step h ht
  exact ⟨hsame.agenda.trans s.enterTick_agenda, hsame.freeTicks.trans s.enterTick_freeTicks,
    hsame.timeNs.trans s.enterTick_timeNs, hsame.cpuMarker.trans s.enterTick_cpuMarker,
    hsame.dispMarker.trans s.enterTick_dispMarker, hsame.params.trans s.enterTick_params⟩

theorem exists_step_of_takeEvent {e : State} (h : s.nextAction = .cpuTick ∨ s.nextAction = .displayTick)
    (he : s.takeEvent = e) :
    ∃ t, step s = .next t ∧ t.agenda = e.agenda ∧ t.freeTicks = e.freeTicks ∧ t.timeNs = e.timeNs ∧
      t.cpuMarker = e.cpuMarker ∧ t.dispMarker = e.dispMarker ∧ t.params = s.params := by
  obtain ⟨t, ht, -⟩ := exists_step_of_tick h
  exact ⟨t, ht, he ▸ hostSide_of_tick h ht⟩

/-- A step from an empty agenda is a tick of the free schedule, which moves no marker and no time. -/
theorem exists_step_of_nil (h : s.agenda = []) :
    ∃ t, step s = .next t ∧ t.agenda = [] ∧ t.freeTicks = s.freeTicks + 1 ∧ t.timeNs = s.timeNs ∧
      t.cpuMarker = s.cpuMarker ∧ t.dispMarker = s.dispMarker := by
  have hact : s.nextAction = .cpuTick ∨ s.nextAction = .displayTick := by
    rw [s.nextAction_of_nil h]; split <;> simp
  obtain ⟨t, ht, hagenda, hfree, htime, hcpu, hdisp, -⟩ := exists_step_of_takeEvent hact (s.takeEvent_of_nil h)
  exact ⟨t, ht, hagenda.trans h, hfree, htime, hcpu, hdisp⟩

/-- A run from an empty agenda is one of ticks of the free schedule. -/
theorem exists_run_of_nil (n : Nat) {s : State} (h : s.agenda = []) :
    ∃ t, core.run n s = .next t ∧ t.agenda = [] ∧ t.freeTicks = s.freeTicks + n ∧ t.timeNs = s.timeNs ∧
      t.cpuMarker = s.cpuMarker ∧ t.dispMarker = s.dispMarker := by
  induction n generalizing s with
  | zero => exact ⟨s, rfl, h, rfl, rfl, rfl, rfl⟩
  | succ n ih =>
    obtain ⟨t, ht, hagenda, hfree, htime, hcpu, hdisp⟩ := exists_step_of_nil h
    obtain ⟨u, hu, hagenda', hfree', htime', hcpu', hdisp'⟩ := ih hagenda
    exact ⟨u, (run_succ_of_step ht).trans hu, hagenda', by omega, htime'.trans htime, hcpu'.trans hcpu,
      hdisp'.trans hdisp⟩

/-- A tick at the head of the agenda is the next step and is used up. -/
theorem exists_step_of_tickEvent {e : Event} {a : Action} {rest : List Event} (h : s.agenda = e :: rest)
    (he : e = .cpuTick ∧ a = .cpuTick ∨ e = .displayTick ∧ a = .displayTick) :
    s.nextAction = a ∧ ∃ t, step s = .next t ∧ t.agenda = rest ∧ t.freeTicks = s.freeTicks ∧ t.timeNs = s.timeNs ∧
      t.cpuMarker = s.cpuMarker ∧ t.dispMarker = s.dispMarker := by
  have hact : s.nextAction = a := by
    obtain ⟨rfl, rfl⟩ | ⟨rfl, rfl⟩ := he
    · exact s.nextAction_of_cpuTick h
    · exact s.nextAction_of_displayTick h
  have hevent : s.takeEvent = { s with agenda := rest } := by
    obtain ⟨rfl, rfl⟩ | ⟨rfl, rfl⟩ := he
    · exact s.takeEvent_of_cpuTick h
    · exact s.takeEvent_of_displayTick h
  have htick : s.nextAction = .cpuTick ∨ s.nextAction = .displayTick := by
    rw [hact]; exact he.imp And.right And.right
  obtain ⟨t, ht, hagenda, hfree, htime, hcpu, hdisp, -⟩ := exists_step_of_takeEvent htick hevent
  exact ⟨hact, t, ht, hagenda, hfree, htime, hcpu, hdisp⟩

end Ticks

/-- Settles O46: a tick keeps what entering it took, and entering it takes the event and one sample. -/
theorem tickSamplesThePortsOnce : Obligations.TickSamplesThePortsOnce := by
  unfold Obligations.TickSamplesThePortsOnce
  refine ⟨fun s t p rest hinputs hact ht => ?_, fun s e a rest h he => exists_step_of_tickEvent h he, fun n s h => ?_⟩
  · have hsame := sameHostSide_of_step hact ht
    obtain ⟨hports, hrest⟩ := s.enterTick_ports_of_inputs hinputs
    exact ⟨hsame.ports.trans hports, hsame.inputs.trans hrest⟩
  · obtain ⟨t, ht, hagenda, hfree, htime, hcpu, hdisp⟩ := exists_run_of_nil n h
    exact ⟨t, ht, hagenda, hfree, htime, hcpu, hdisp, by rw [t.nextAction_of_nil hagenda, hfree]⟩

/-! ## Refusals -/

section Refusals

variable {s : State} {r : Refusal}

/-- The two ticks, and with them every instruction, always have a meaning. -/
theorem nextAction_of_refused (h : step s = .refused r) : s.nextAction = .refuse r := by
  cases hact : s.nextAction with
  | cpuTick =>
    obtain ⟨t, ht⟩ := exists_cpuTick s.enterTick
    cases ht.symm.trans ((step_of_cpuTick hact).symm.trans h)
  | refuse r' =>
    cases (step_of_refuse hact).symm.trans h
    rfl
  | _ => simp [step, runAction, hact] at h

theorem nextAction_refuse_cases (h : s.nextAction = .refuse r) :
    (r = .romTooLong ∧ ∃ rom rest, s.agenda = .reset rom :: rest ∧ maxRomLength < rom.length) ∨
    ∃ now rest, (s.agenda = .pass now :: rest ∨ s.agenda = .start now :: rest) ∧ s.timeRefusal now = some r := by
  revert h
  fun_cases State.nextAction s with
  | case6 rom rest hagenda hrom => rintro ⟨⟩; exact .inl ⟨rfl, rom, rest, hagenda, Nat.not_le.mp hrom⟩
  | case7 t0 rest hagenda _ htime => rintro ⟨⟩; exact .inr ⟨t0, rest, .inr hagenda, htime⟩
  | case9 now rest hagenda _ htime => rintro ⟨⟩; exact .inr ⟨now, rest, .inl hagenda, htime⟩
  | _ => rintro ⟨⟩

theorem timeRefusal_cases {now : Time} (h : s.timeRefusal now = some r) :
    (r = .rateOutOfBounds ∧ (rateOk s.params.cpuHz = false ∨ rateOk s.params.displayHz = false)) ∨
    (r = .timeBackwards ∧ now.toNat < s.timeNs.toNat) := by
  unfold State.timeRefusal at h
  split at h
  · rename_i hrate
    cases h
    exact .inl ⟨rfl, by simpa [imp_iff_not_or] using hrate⟩
  · split at h
    · cases h; exact .inr ⟨rfl, ‹_›⟩
    · cases h

end Refusals

/-- Settles O47: the next action is the refusal, and the action tells the event and the reason. -/
theorem stepRefusesOnlyHostEvents : Obligations.StepRefusesOnlyHostEvents := by
  unfold Obligations.StepRefusesOnlyHostEvents
  intro s r h
  obtain hrom | ⟨now, rest, hagenda, htime⟩ := nextAction_refuse_cases (nextAction_of_refused h)
  · exact .inl hrom
  · obtain ⟨rfl, hrate⟩ | ⟨rfl, hpast⟩ := timeRefusal_cases htime
    · exact .inr ⟨.inl rfl, now, rest, hagenda, fun _ => hrate, nofun⟩
    · exact .inr ⟨.inr rfl, now, rest, hagenda, nofun, fun _ => hpast⟩

/-! ## Ended runs -/

section Ended

variable {s t : State}

theorem cpuDue_of_ended (h : s.status ≠ .running) (now : Time) : s.cpuDue now = false := by
  simp [State.cpuDue, h]

theorem dispDue_of_ended (h : s.status ≠ .running) (now : Time) : s.dispDue now = false := by
  simp [State.dispDue, h]

/-- In an ended run an event moves no marker (log entry 17). -/
theorem takeEvent_of_ended (h : s.status ≠ .running) : s.takeEvent =
    { s with agenda := s.takeEvent.agenda, timeNs := s.takeEvent.timeNs, freeTicks := s.takeEvent.freeTicks } := by
  unfold State.takeEvent
  split <;> simp only [h, cpuDue_of_ended h, dispDue_of_ended h, Bool.false_eq_true, if_false]

/-- In an ended run a CPU tick does nothing. -/
theorem cpuTick_of_ended (h : s.status ≠ .running) : cpuTick s = .next s := if_pos h

end Ended

/-- Settles O48: in an ended run a tick does nothing but enter, and no event moves a marker. -/
theorem endedRunIsAbsorbing : Obligations.EndedRunIsAbsorbing := by
  unfold Obligations.EndedRunIsAbsorbing
  intro s t hended hnoreset h
  have hentered : s.enterTick.status ≠ .running := s.enterTick_status.symm ▸ hended
  have hevent := takeEvent_of_ended hended
  have hcpu : s.takeEvent.cpuMarker = s.cpuMarker := by rw [hevent]
  have hdisp : s.takeEvent.dispMarker = s.dispMarker := by rw [hevent]
  have henter : s.enterTick = { s with
      render := false, buzz := false, agenda := s.enterTick.agenda, timeNs := s.enterTick.timeNs
      ports := s.enterTick.ports, inputs := s.enterTick.inputs, draws := s.enterTick.draws
      freeTicks := s.enterTick.freeTicks } := by
    rw [State.mk.injEq]; simp [hcpu, hdisp]
  obtain ⟨-, h⟩ | ⟨-, rfl⟩ | ⟨rom, hrom, -⟩ | ⟨-, rfl⟩ := step_cases h
  · cases (cpuTick_of_ended hentered).symm.trans h
    exact henter
  · rw [displayTick_of_ended hentered]
    exact henter
  · exact absurd hrom (hnoreset rom)
  · rw [State.mk.injEq]; simp [hcpu, hdisp]

/-! ## Strobes -/

section Strobes

variable {s t : State}

theorem cpuTick_strobes (h : cpuTick s = .next t) : t.render = s.render ∧ t.buzz = s.buzz := by
  obtain ⟨-, hc⟩ | ⟨-, -, hc⟩ | ⟨-, -, hc⟩ := cpuTick_cases s
  · cases hc.symm.trans h; exact ⟨rfl, rfl⟩
  · cases hc.symm.trans h; exact ⟨rfl, rfl⟩
  · obtain ⟨-, -, hrender, hbuzz, -⟩ := instructionsLeaveTheHostSideAlone _ s t (hc.symm.trans h)
    exact ⟨hrender, hbuzz⟩

end Strobes

/-- Settles O52: a step begins with the strobes low, and of the actions the display tick alone raises one. -/
theorem onlyDisplayTicksRaiseStrobes : Obligations.OnlyDisplayTicksRaiseStrobes := by
  unfold Obligations.OnlyDisplayTicksRaiseStrobes
  intro s t h hact
  obtain ⟨-, h⟩ | ⟨hdisp, -⟩ | ⟨rom, -, rfl⟩ | ⟨-, rfl⟩ := step_cases h
  · obtain ⟨hrender, hbuzz⟩ := cpuTick_strobes h
    exact ⟨hrender.trans s.enterTick_render, hbuzz.trans s.enterTick_buzz⟩
  · exact absurd hdisp hact
  · exact ⟨rfl, rfl⟩
  · exact ⟨rfl, rfl⟩

end Sys2Proof.Machine
end

section
/-! PROOF. The scheduler (spec/60_exceptions.md R229, R230): a pass takes its due ticks one by one, and as many
as fit. -/

namespace Sys2Proof.Machine

open Sys2Proof.Claims

/-! ## One step of a pass -/

section Pass

variable {s : State} {now : Time} {rest : List Event}

theorem cpuDue_iff (hr : s.status = .running) :
    s.cpuDue now = true ↔ s.cpuMarker.toNat + interval s.params.cpuHz ≤ now.toNat := by
  simp [State.cpuDue, hr]

theorem dispDue_iff (hr : s.status = .running) :
    s.dispDue now = true ↔ s.dispMarker.toNat + interval s.params.displayHz ≤ now.toNat := by
  simp [State.dispDue, hr]

theorem nextAction_of_pass (hagenda : s.agenda = .pass now :: rest) (htime : s.timeRefusal now = none) :
    s.nextAction = if s.cpuDue now then .cpuTick else if s.dispDue now then .displayTick else .passDone := by
  simp [State.nextAction, hagenda, htime]

theorem takeEvent_of_pass (hagenda : s.agenda = .pass now :: rest) : s.takeEvent =
    if s.cpuDue now then
      { s with timeNs := now, cpuMarker := s.cpuMarker + BitVec.ofNat 64 (interval s.params.cpuHz) }
    else if s.dispDue now then
      { s with timeNs := now, dispMarker := s.dispMarker + BitVec.ofNat 64 (interval s.params.displayHz) }
    else { s with timeNs := now, agenda := rest } := by
  simp [State.takeEvent, hagenda]

/-- A marker that moves no further than a time does not wrap. -/
theorem marker_add_toNat {marker : Time} {n : Nat} (h : marker.toNat + n ≤ now.toNat) :
    (marker + BitVec.ofNat 64 n).toNat = marker.toNat + n := by
  have hnow : now.toNat < 2 ^ 64 := now.isLt
  rw [BitVec.toNat_add, BitVec.toNat_ofNat]
  omega

/-- A due CPU tick is the next step and moves its marker alone. -/
theorem exists_step_of_cpuDue (hagenda : s.agenda = .pass now :: rest) (htime : s.timeRefusal now = none)
    (hdue : s.cpuDue now = true) (hle : s.cpuMarker.toNat + interval s.params.cpuHz ≤ now.toNat) :
    s.nextAction = .cpuTick ∧ ∃ t, step s = .next t ∧ t.agenda = s.agenda ∧ t.timeNs = now ∧
      t.cpuMarker.toNat = s.cpuMarker.toNat + interval s.params.cpuHz ∧ t.dispMarker = s.dispMarker ∧
      t.params = s.params := by
  have hact : s.nextAction = .cpuTick := by rw [nextAction_of_pass hagenda htime, if_pos hdue]
  have hevent := takeEvent_of_pass hagenda
  rw [if_pos hdue] at hevent
  obtain ⟨t, ht, ha, -, htn, hcpu, hdisp, hparams⟩ := exists_step_of_takeEvent (.inl hact) hevent
  exact ⟨hact, t, ht, ha, htn, (congrArg BitVec.toNat hcpu).trans (marker_add_toNat hle), hdisp, hparams⟩

/-- With no CPU tick due, a due display tick is the next step and moves its marker alone. -/
theorem exists_step_of_dispDue (hagenda : s.agenda = .pass now :: rest) (htime : s.timeRefusal now = none)
    (hnot : s.cpuDue now = false) (hdue : s.dispDue now = true)
    (hle : s.dispMarker.toNat + interval s.params.displayHz ≤ now.toNat) :
    s.nextAction = .displayTick ∧ ∃ t, step s = .next t ∧ t.agenda = s.agenda ∧ t.timeNs = now ∧
      t.dispMarker.toNat = s.dispMarker.toNat + interval s.params.displayHz ∧ t.cpuMarker = s.cpuMarker ∧
      t.params = s.params := by
  have hact : s.nextAction = .displayTick := by
    rw [nextAction_of_pass hagenda htime, if_neg (by simp [hnot]), if_pos hdue]
  have hevent := takeEvent_of_pass hagenda
  rw [if_neg (by simp [hnot]), if_pos hdue] at hevent
  obtain ⟨t, ht, ha, -, htn, hcpu, hdisp, hparams⟩ := exists_step_of_takeEvent (.inr hact) hevent
  exact ⟨hact, t, ht, ha, htn, (congrArg BitVec.toNat hdisp).trans (marker_add_toNat hle), hcpu, hparams⟩

/-- With no tick due the pass ends. -/
theorem step_of_passDone (hagenda : s.agenda = .pass now :: rest) (htime : s.timeRefusal now = none)
    (hcpu : s.cpuDue now = false) (hdisp : s.dispDue now = false) :
    step s = .next { s with agenda := rest, timeNs := now, render := false, buzz := false } := by
  have hact : s.nextAction = .passDone := by simp [nextAction_of_pass hagenda htime, hcpu, hdisp]
  rw [step, runAction, hact, takeEvent_of_pass hagenda]
  simp [hcpu, hdisp, State.lowerStrobes]

end Pass

theorem step_of_start {s : State} {t0 : Time} {rest : List Event} (hagenda : s.agenda = .start t0 :: rest)
    (hr : s.status = .running) (htime : s.timeRefusal t0 = none) :
    step s = .next { s with
      agenda := rest, timeNs := t0, cpuMarker := t0, dispMarker := t0, render := false, buzz := false } := by
  have hact : s.nextAction = .start := by simp [State.nextAction, hagenda, htime]
  rw [step, runAction, hact, s.takeEvent_of_start hagenda hr]
  rfl

/-- Settles O53: the marker and the interval tell which tick is due. -/
theorem passRunsDueTicksInOrder : Obligations.PassRunsDueTicksInOrder := by
  unfold Obligations.PassRunsDueTicksInOrder
  refine ⟨fun s now rest hagenda hr hcpu hdisp hnow => ?_, fun s t0 rest hagenda hr hcpu hdisp hnow => ?_⟩
  · have htime := (s.timeRefusal_eq_none_iff now).mpr ⟨hcpu, hdisp, hnow⟩
    have hnot (h : now.toNat < s.cpuMarker.toNat + 1000000000 / s.params.cpuHz) : s.cpuDue now = false :=
      Bool.eq_false_iff.mpr fun hdue => Nat.not_le.mpr h ((cpuDue_iff hr).mp hdue)
    refine ⟨fun hle => ?_, fun hlt hle => ?_, fun hlt hlt' => step_of_passDone hagenda htime (hnot hlt) ?_⟩
    · obtain ⟨hact, t, ht, ha, htn, hm, hd, -⟩ := exists_step_of_cpuDue hagenda htime ((cpuDue_iff hr).mpr hle) hle
      exact ⟨hact, t, ht, ha, htn, hm, hd⟩
    · obtain ⟨hact, t, ht, ha, htn, hm, hc, -⟩ :=
        exists_step_of_dispDue hagenda htime (hnot hlt) ((dispDue_iff hr).mpr hle) hle
      exact ⟨hact, t, ht, ha, htn, hm, hc⟩
    · exact Bool.eq_false_iff.mpr fun hdue => Nat.not_le.mpr hlt' ((dispDue_iff hr).mp hdue)
  · exact step_of_start hagenda hr ((s.timeRefusal_eq_none_iff t0).mpr ⟨hcpu, hdisp, hnow⟩)

/-! ## A whole pass -/

/-- The time to go through as many whole intervals as fit, reached by one interval more. -/
theorem add_mul_div_of_interval {m iv now : Nat} (hpos : 0 < iv) (h : m + iv ≤ now) :
    m + iv + iv * ((now - (m + iv)) / iv) = m + iv * ((now - m) / iv) := by
  have hsub : now - m = now - (m + iv) + iv := by omega
  rw [hsub, Nat.add_div_right _ hpos, Nat.mul_succ]
  omega

theorem mul_div_of_no_interval {m iv now : Nat} (h : now < m + iv) (hle : m ≤ now) : m = m + iv * ((now - m) / iv) := by
  rw [Nat.div_eq_of_lt (by omega), Nat.mul_zero, Nat.add_zero]

theorem interval_pos {hz : Nat} (h : rateOk hz = true) : 0 < interval hz := by
  simp only [rateOk, Bool.and_eq_true, decide_eq_true_eq] at h
  exact Nat.div_pos h.2 h.1

/-- No event of the agenda is a reset. -/
def State.NoResetInStore (s : State) : Prop := ∀ rom, .reset rom ∉ s.agenda

/-- Taking an event leaves in store only events that were there. -/
theorem takeEvent_agenda_subset (s : State) : s.takeEvent.agenda ⊆ s.agenda := by
  fun_cases State.takeEvent s <;> simp [*]

section Run

variable {s t : State} {n : Nat}

theorem nextAction_reset_cases {rom : List Byte} (h : s.nextAction = .reset rom) :
    ∃ rest, s.agenda = .reset rom :: rest ∧ rom.length ≤ maxRomLength := by
  revert h
  fun_cases State.nextAction s with
  | case5 rom' rest hagenda hrom => rintro ⟨⟩; exact ⟨rest, hagenda, hrom⟩
  | _ => rintro ⟨⟩

/-- A step that is no reset leaves the markers, the time and the agenda as taking the event left them. -/
theorem step_hostSide (h : step s = .next t) :
    (∃ rom, s.nextAction = .reset rom ∧ t = s.takeEvent.afterReset rom) ∨
    (t.cpuMarker = s.takeEvent.cpuMarker ∧ t.dispMarker = s.takeEvent.dispMarker ∧ t.timeNs = s.takeEvent.timeNs ∧
      t.params = s.params ∧ t.agenda = s.takeEvent.agenda) := by
  have tick (hact : s.nextAction = .cpuTick ∨ s.nextAction = .displayTick) :
      t.cpuMarker = s.takeEvent.cpuMarker ∧ t.dispMarker = s.takeEvent.dispMarker ∧ t.timeNs = s.takeEvent.timeNs ∧
        t.params = s.params ∧ t.agenda = s.takeEvent.agenda := by
    obtain ⟨hagenda, -, htime, hcpu, hdisp, hparams⟩ := hostSide_of_tick hact h
    exact ⟨hcpu, hdisp, htime, hparams, hagenda⟩
  obtain ⟨hact, -⟩ | ⟨hact, -⟩ | hreset | ⟨-, rfl⟩ := step_cases h
  · exact .inr (tick (.inl hact))
  · exact .inr (tick (.inr hact))
  · exact .inl hreset
  · exact .inr ⟨rfl, rfl, rfl, s.takeEvent_params, rfl⟩

/-- Without a reset in store an ended run stays so in a step. -/
theorem step_of_ended (hno : s.NoResetInStore) (hended : s.status ≠ .running) (h : step s = .next t) :
    t.NoResetInStore ∧ t.status ≠ .running := by
  have hact : ∀ rom, s.nextAction ≠ .reset rom := fun rom hact => by
    obtain ⟨rest, hagenda, -⟩ := nextAction_reset_cases hact
    exact hno rom (hagenda ▸ List.mem_cons_self)
  have hstatus : t.status = s.status := by rw [endedRunIsAbsorbing s t hended hact h]
  refine ⟨fun rom hmem => ?_, hstatus ▸ hended⟩
  obtain ⟨rom', hreset, -⟩ | ⟨-, -, -, -, hagenda⟩ := step_hostSide h
  · exact hact rom' hreset
  · exact hno rom (takeEvent_agenda_subset s (hagenda ▸ hmem))

/-- Without a reset in store an ended run stays ended. -/
theorem run_of_ended (hno : s.NoResetInStore) (hended : s.status ≠ .running) (h : core.run n s = .next t) :
    t.status ≠ .running := by
  induction n generalizing s with
  | zero => cases h; exact hended
  | succ n ih =>
    obtain ⟨u, hu, hrun⟩ := run_succ_cases h
    obtain ⟨hno', hended'⟩ := step_of_ended hno hended hu
    exact ih hno' hended' hrun

/-- A pass whose step answers a next state is not refused. -/
theorem timeRefusal_of_step {now : Time} {rest : List Event} (hagenda : s.agenda = .pass now :: rest)
    (h : step s = .next t) : s.timeRefusal now = none := by
  cases htime : s.timeRefusal now with
  | none => rfl
  | some r =>
    have hact : s.nextAction = .refuse r := by simp [State.nextAction, hagenda, htime]
    cases (step_of_refuse hact).symm.trans h

end Run

/-- Settles O54: by induction on the steps. A due tick moves its marker by one of the intervals that fit; the step that
ends the pass is taken when none fits, and the ticks after it, of the free schedule, move no marker. -/
theorem passRunsAsManyTicksAsFit : Obligations.PassRunsAsManyTicksAsFit := by
  unfold Obligations.PassRunsAsManyTicksAsFit
  intro n
  induction n with
  | zero => rintro s t now hagenda - - ⟨⟩ hdone; rw [hagenda] at hdone; cases hdone
  | succ n ih =>
    intro s t now hagenda hcm hdm hrun hdone hrt
    have hr : s.status = .running := by
      by_contra hended
      exact run_of_ended (fun rom => by simp [hagenda]) hended hrun hrt
    obtain ⟨u, hu, hrun⟩ := run_succ_cases hrun
    have htime := timeRefusal_of_step hagenda hu
    obtain ⟨hcpuRate, hdispRate, -⟩ := (s.timeRefusal_eq_none_iff now).mp htime
    cases hcpu : s.cpuDue now with
    | true =>
      have hle := (cpuDue_iff hr).mp hcpu
      obtain ⟨-, u', hu', ha, -, hm, hd, hp⟩ := exists_step_of_cpuDue hagenda htime hcpu hle
      cases hu'.symm.trans hu
      have hih := ih u t now (ha.trans hagenda) (hm ▸ hle) (hd ▸ hdm) hrun hdone hrt
      rw [hm, hd, hp] at hih
      exact ⟨hih.1.trans (add_mul_div_of_interval (interval_pos hcpuRate) hle), hih.2⟩
    | false =>
      have hlt : now.toNat < s.cpuMarker.toNat + interval s.params.cpuHz :=
        Nat.not_le.mp fun h => by simp [(cpuDue_iff hr).mpr h] at hcpu
      cases hdisp : s.dispDue now with
      | true =>
        have hle := (dispDue_iff hr).mp hdisp
        obtain ⟨-, u', hu', ha, -, hm, hc, hp⟩ := exists_step_of_dispDue hagenda htime hcpu hdisp hle
        cases hu'.symm.trans hu
        have hih := ih u t now (ha.trans hagenda) (hc ▸ hcm) (hm ▸ hle) hrun hdone hrt
        rw [hm, hc, hp] at hih
        exact ⟨hih.1, hih.2.trans (add_mul_div_of_interval (interval_pos hdispRate) hle)⟩
      | false =>
        have hlt' : now.toNat < s.dispMarker.toNat + interval s.params.displayHz :=
          Nat.not_le.mp fun h => by simp [(dispDue_iff hr).mpr h] at hdisp
        cases (step_of_passDone hagenda htime hcpu hdisp).symm.trans hu
        obtain ⟨t', ht', -, -, -, hc, hd⟩ := exists_run_of_nil n
          (s := { s with agenda := [], timeNs := now, render := false, buzz := false }) rfl
        cases ht'.symm.trans hrun
        rw [hc, hd]
        exact ⟨mul_div_of_no_interval hlt hcm, mul_div_of_no_interval hlt' hdm⟩

end Sys2Proof.Machine
end

section
/-! PROOF. Reset (spec/70_reset_and_hazards.md R260, R261): the memory it loads, and that its state is sound. -/

namespace Sys2Proof.Machine

/-! ## The memory after a reset -/

/-- Glyph `d` of the font begins at address `5 * d` (spec/20_memory.md R61). -/
theorem background_of_glyph (font : Font) (d : Fin 16) (r : Fin 5) :
    Memory.background font (5 * d.val + r.val) = font[d][r] := by
  have hd : glyphIndex (5 * d.val + r.val) = d := Fin.ext (by simp only [glyphIndex, Fin.val_ofNat]; omega)
  have hr : glyphRow (5 * d.val + r.val) = r := Fin.ext (by simp only [glyphRow, Fin.val_ofNat]; omega)
  rw [Memory.background, if_pos (by omega)]
  simp only [hd, hr]

theorem background_of_above_font (font : Font) {a : Nat} (h : 0x050 ≤ a) : Memory.background font a = 0x00#8 :=
  if_neg (Nat.not_lt.mpr h)

section Reset

variable (s : State) (rom : List Byte)

theorem afterReset_readByte (a : Nat) : (s.afterReset rom).readByte a =
    if h : 0x200 ≤ a ∧ a < 0x200 + rom.length then rom[a - 0x200]'(by omega)
    else Memory.background s.params.font a :=
  Memory.read_writeBytes _ _ _ _ _

theorem afterReset_readByte_font (d : Fin 16) (r : Fin 5) :
    (s.afterReset rom).readByte (5 * d.val + r.val) = s.params.font[d][r] := by
  rw [afterReset_readByte, dif_neg (by omega), background_of_glyph]

theorem afterReset_readByte_rom (k : Fin rom.length) : (s.afterReset rom).readByte (0x200 + k.val) = rom[k] := by
  rw [afterReset_readByte, dif_pos (by omega)]
  simp only [Nat.add_sub_cancel_left, Fin.getElem_fin]

theorem afterReset_readByte_zero {a : Nat} (h : (0x050 ≤ a ∧ a < 0x200) ∨ 0x200 + rom.length ≤ a) :
    (s.afterReset rom).readByte a = 0x00#8 := by
  rw [afterReset_readByte, dif_neg (by omega), background_of_above_font _ (by omega)]

end Reset

theorem step_of_reset {s : State} {rom : List Byte} {rest : List Event} (h : s.agenda = .reset rom :: rest)
    (hrom : rom.length ≤ maxRomLength) : step s = .next ({ s with agenda := rest }.afterReset rom) := by
  have hact : s.nextAction = .reset rom := by simp [State.nextAction, h, hrom]
  have hevent : s.takeEvent = { s with agenda := rest } := by simp [State.takeEvent, h]
  rw [step, runAction, hact, hevent]

/-- Settles O55: the fields are those of the reset state, and memory reads as the font, the ROM and zero. -/
theorem resetLoadsTheRom : Obligations.ResetLoadsTheRom := by
  unfold Obligations.ResetLoadsTheRom
  intro s rom rest h hrom
  refine ⟨_, step_of_reset h hrom, fun r => Vector.getElem_replicate _, rfl, rfl, fun k => Vector.getElem_replicate _,
    rfl, rfl, pixel_blankScreen, rfl, rfl, rfl, rfl, rfl, rfl, rfl, rfl, rfl, rfl, rfl, rfl, rfl, ?_, ?_, ?_⟩
  · exact afterReset_readByte_font _ rom
  · exact afterReset_readByte_rom _ rom
  · exact fun a => afterReset_readByte_zero _ rom

/-! ## Soundness -/

/-- A reset with a ROM that fits leaves memory in its canonical form. -/
theorem afterReset_memoryOk (s : State) {rom : List Byte} (h : rom.length ≤ maxRomLength) :
    (s.afterReset rom).MemoryOk := by
  have hrom : rom.length ≤ 3584 := h
  exact Memory.wf_writeBytes _ (Memory.wf_nil _) (by omega)

theorem afterReset_pcOk (s : State) (rom : List Byte) : (s.afterReset rom).PcOk := by
  have hpc : (0x0200#16 : Word).toNat ≤ 0x10FE := by decide
  refine ⟨hpc, fun k => ?_⟩
  have hk : (s.afterReset rom).stack[k] = 0x0000#16 := Vector.getElem_replicate _
  rw [hk]; decide

theorem afterReset_keyWaitOk (s : State) (rom : List Byte) : (s.afterReset rom).KeyWaitOk := nofun

theorem afterReset_recordOk (s : State) (rom : List Byte) : (s.afterReset rom).RecordOk :=
  ⟨iff_of_true rfl rfl, iff_of_false nofun nofun, fun _ => ⟨rfl, rfl⟩⟩

theorem afterReset_markersOk (s : State) (rom : List Byte) : (s.afterReset rom).MarkersOk := ⟨le_rfl, le_rfl⟩

/-- The state right after reset is that of a reset with an empty ROM. -/
theorem afterReset_reset : State.reset.afterReset [] = State.reset := rfl

/-- Settles O57: the parts that hold after every reset, and the bounds of the default parameters. -/
theorem resetStateIsSound : Obligations.ResetStateIsSound := by
  unfold Obligations.ResetStateIsSound
  rw [← afterReset_reset]
  exact ⟨afterReset_memoryOk _ (by decide), afterReset_pcOk _ _, afterReset_keyWaitOk _ _, afterReset_recordOk _ _,
    afterReset_markersOk _ _, by decide⟩

end Sys2Proof.Machine
end

section
/-! PROOF. What every step keeps (spec/10_state.md R27, R28, R30, R35; spec/60_exceptions.md R221, R229): each part of
soundness is kept by the parts of a step, and so by the step. -/

namespace Sys2Proof.Machine

open Sys2Proof.Claims

/-! ## The shape of the argument -/

/-- A property that every part of a step keeps: taking an event, entering a tick, a fault, the effect of the fetched
instruction, a display tick and a reset. -/
structure KeptByParts (P : State → Prop) : Prop where
  event : ∀ s : State, P s → P s.takeEvent.lowerStrobes
  enter : ∀ s : State, P s → P s.enterTick
  fault : ∀ (s : State) (cause : Cause) (addr : BitVec 17), cause ≠ .none → cause ≠ .collaboratorFailure → P s →
    P (Faulted s cause addr)
  instr : ∀ s : State, s.pc.toNat ≤ lastFetchPc → FaultOf (decode s.fetchWord) s = none → P s →
    P (effect (decode s.fetchWord) s)
  display : ∀ s : State, P s → P (displayTick s)
  reset : ∀ (s : State) (rom : List Byte), rom.length ≤ maxRomLength → P (s.afterReset rom)

/-- The table of causes has neither the cause of a running machine nor that of a stopped one. -/
theorem faultOf_cause {i : Instr} {s : State} {cause : Cause} {addr : BitVec 17}
    (h : FaultOf i s = some (cause, addr)) : cause ≠ .none ∧ cause ≠ .collaboratorFailure := by
  cases i with
  | ret | call | skp | sknp | drw | ldB | ldMemVx | ldVxMem =>
    obtain ⟨-, h⟩ := Option.ite_none_right_eq_some.mp h
    cases h
    decide
  | _ => cases h

theorem KeptByParts.of_cpuTick {P : State → Prop} (hP : KeptByParts P) {s t : State} (hs : P s)
    (h : cpuTick s = .next t) : P t := by
  obtain ⟨-, hc⟩ | ⟨-, -, hc⟩ | ⟨-, hpc, hc⟩ := cpuTick_cases s
  · cases hc.symm.trans h
    exact hs
  · cases hc.symm.trans h
    exact hP.fault s _ _ (by decide) (by decide) hs
  · obtain ⟨cause, addr, hf, rfl⟩ | ⟨hf, rfl⟩ := exec_cases (hc.symm.trans h)
    · obtain ⟨hnone, hcoll⟩ := faultOf_cause hf
      exact hP.fault s cause addr hnone hcoll hs
    · exact hP.instr s hpc hf hs

theorem KeptByParts.of_step {P : State → Prop} (hP : KeptByParts P) {s t : State} (hs : P s) (h : step s = .next t) :
    P t := by
  obtain ⟨-, h⟩ | ⟨-, rfl⟩ | ⟨rom, hact, rfl⟩ | ⟨-, rfl⟩ := step_cases h
  · exact hP.of_cpuTick (hP.enter s hs) h
  · exact hP.display _ (hP.enter s hs)
  · obtain ⟨-, -, hrom⟩ := nextAction_reset_cases hact
    exact hP.reset _ rom hrom
  · exact hP.event s hs

/-! ## The PC and the stack -/

theorem pc_add_toNat {pc : Word} {n : Nat} (h : pc.toNat ≤ lastFetchPc) (hn : n ≤ 4) :
    (pc + BitVec.ofNat 16 n).toNat = pc.toNat + n := by
  have hpc : pc.toNat ≤ 0x0FFE := h
  rw [BitVec.toNat_add, BitVec.toNat_ofNat]
  omega

theorem State.keyWaitPoll_pc (s : State) (x : Reg) :
    (s.keyWaitPoll x).pc = s.pc ∨ (s.keyWaitPoll x).pc = s.pc + 2#16 := by
  unfold State.keyWaitPoll
  split <;> split <;> simp

/-- The PC after an instruction is an address of a jump, an entry of the stack, or at most 4 above the PC before. -/
theorem effect_pc_le (i : Instr) {s : State} (hpc : s.pc.toNat ≤ lastFetchPc)
    (hstack : ∀ k : Fin 16, s.stack[k].toNat ≤ 0x1000) : (effect i s).pc.toNat ≤ 0x10FE := by
  have hpc' : s.pc.toNat ≤ 0x0FFE := hpc
  have h2 : (s.pc + 2#16).toNat = s.pc.toNat + 2 := pc_add_toNat hpc (by omega)
  have h4 : (s.pc + 4#16).toNat = s.pc.toNat + 4 := pc_add_toNat hpc (by omega)
  have haddr (nnn : Addr) : (addrWord nnn).toNat < 0x1000 := addrWord_toNat nnn ▸ nnn.isLt
  cases i with
  | ret => exact (hstack _).trans (by omega)
  | jp nnn | call nnn => exact (haddr nnn).le.trans (by omega)
  | jpV0 nnn =>
    have hv : s.v[0].toNat < 0x100 := s.v[0].isLt
    have hnnn : nnn.toNat < 0x1000 := nnn.isLt
    simp only [effect, addrWord_add_byteWord_toNat]
    omega
  | seImm | sneImm | seReg | sneReg | skp | sknp =>
    simp only [effect]
    split <;> omega
  | ldVxK x =>
    change (s.keyWaitPoll x).pc.toNat ≤ 0x10FE
    obtain h | h := s.keyWaitPoll_pc x <;> rw [h] <;> omega
  | _ =>
    simp only [effect]
    omega

/-- What a `CALL` pushes is the address after it. -/
theorem effect_stack_le (i : Instr) {s : State} (hpc : s.pc.toNat ≤ lastFetchPc)
    (hstack : ∀ k : Fin 16, s.stack[k].toNat ≤ 0x1000) (k : Fin 16) : (effect i s).stack[k].toNat ≤ 0x1000 := by
  obtain ⟨-, hsame⟩ | rfl | ⟨nnn, rfl⟩ := effect_stack i s
  · rw [hsame]
    exact hstack k
  · exact hstack k
  · have hset : (effect (.call nnn) s).stack[k] = if k = stackSlot s.sp.val then s.pc + 2#16 else s.stack[k] :=
      getElem_set_fin _ _ _ _
    rw [hset]
    split
    · rw [pc_add_toNat hpc (by omega)]
      exact Nat.add_le_add_right hpc 2
    · exact hstack k

theorem keptByParts_pcOk : KeptByParts State.PcOk where
  event s h := by simpa [State.PcOk] using h
  enter s h := by simpa [State.PcOk] using h
  fault _ _ _ _ _ h := h
  instr s hpc _ h := ⟨effect_pc_le _ hpc h.2, effect_stack_le _ hpc h.2⟩
  display s h := by obtain hd | hd := displayTick_cases s <;> rw [hd] <;> exact h
  reset s rom _ := afterReset_pcOk s rom

/-- Settles O58: each part of a step keeps the range. -/
theorem stepKeepsPcInItsRange : Obligations.StepKeepsPcInItsRange := by
  unfold Obligations.StepKeepsPcInItsRange
  exact fun s t => keptByParts_pcOk.of_step

/-! ## The key wait -/

/-- A poll after which the wait is on changed nothing, or began the wait. -/
theorem State.keyWaitPoll_of_waiting_after {s : State} {x : Reg} (h : (s.keyWaitPoll x).kwWaiting = true) :
    s.keyWaitPoll x = s ∨
      s.keyWaitPoll x = { s with kwWaiting := true, kwReg := x, kwKey := lowestKey s.ports.keys } := by
  unfold State.keyWaitPoll at h ⊢
  split at h <;> split at h <;> simp_all

theorem keptByParts_keyWaitOk : KeptByParts State.KeyWaitOk where
  event s h := by simpa [State.KeyWaitOk, State.fetchWord, State.readByte] using h
  enter s h := by simpa [State.KeyWaitOk] using h
  fault _ _ _ _ _ h := h
  instr s hpc _ h hw := by
    have hi : ∃ x, decode s.fetchWord = .ldVxK x := by
      obtain ⟨hsame, -, -⟩ | hi := effect_keyWait (decode s.fetchWord) s
      · exact ⟨s.kwReg, (h (hsame ▸ hw)).2⟩
      · exact hi
    obtain ⟨x, hx⟩ := hi
    rw [hx, show effect (.ldVxK x) s = s.keyWaitPoll x from (s.keyWaitPoll_eq x).symm] at hw ⊢
    obtain hsame | hbegun := State.keyWaitPoll_of_waiting_after hw
    · rw [hsame] at hw ⊢
      exact h hw
    · rw [hbegun]
      exact ⟨hpc, hx⟩
  display s h := by obtain hd | hd := displayTick_cases s <;> rw [hd] <;> exact h
  reset s rom _ := afterReset_keyWaitOk s rom

/-- Settles O59: each part of a step keeps the wait at its instruction. -/
theorem stepKeepsKeyWaitAtItsInstruction : Obligations.StepKeepsKeyWaitAtItsInstruction := by
  unfold Obligations.StepKeepsKeyWaitAtItsInstruction
  exact fun s t => keptByParts_keyWaitOk.of_step

/-! ## Memory -/

/-- Without a fault the bytes an instruction stores are in memory. -/
theorem effect_memoryOk {i : Instr} {s : State} (hf : FaultOf i s = none) (h : s.MemoryOk) :
    (effect i s).MemoryOk := by
  have hparams : (effect i s).params = s.params := by rw [effect_eq]
  rw [State.MemoryOk, hparams]
  obtain hsame | ⟨x, rfl⟩ | ⟨x, rfl⟩ := effect_mem i s
  · rw [hsame]
    exact h
  · have hin : s.idx.toNat + 2 ≤ 0x0FFF := by simpa [FaultOf] using hf
    have hlen : (decimalDigits s.v[x]).length = 3 := rfl
    exact Memory.wf_writeBytes _ h (by omega)
  · have hin : s.idx.toNat + x.val ≤ 0x0FFF := by simpa [FaultOf] using hf
    have hlen : (s.regsUpTo x).length = x.val + 1 := s.length_regsUpTo x
    exact Memory.wf_writeBytes _ h (by omega)

theorem keptByParts_memoryOk : KeptByParts State.MemoryOk where
  event s h := by simpa [State.MemoryOk] using h
  enter s h := by simpa [State.MemoryOk] using h
  fault _ _ _ _ _ h := h
  instr s _ hf h := effect_memoryOk hf h
  display s h := by obtain hd | hd := displayTick_cases s <;> rw [hd] <;> exact h
  reset s rom hrom := afterReset_memoryOk s hrom

/-! ## The fault record -/

theorem keptByParts_recordOk : KeptByParts State.RecordOk where
  event s h := by simpa [State.RecordOk] using h
  enter s h := by simpa [State.RecordOk] using h
  fault s cause addr hnone hcoll _ := ⟨iff_of_false nofun hnone, iff_of_false nofun hcoll, nofun⟩
  instr s _ _ h := by rw [effect_eq]; exact h
  display s h := by
    obtain hd | hd := displayTick_cases s <;> rw [hd]
    · exact h
    · exact ⟨iff_of_false nofun nofun, iff_of_true rfl rfl, nofun⟩
  reset s rom _ := afterReset_recordOk s rom

/-! ## The markers and the parameters -/

section Markers

variable {s t : State} {now : Time} {rest : List Event}

theorem cpuDue_le (h : s.cpuDue now = true) : s.cpuMarker.toNat + interval s.params.cpuHz ≤ now.toNat := by
  simp only [State.cpuDue, Bool.and_eq_true, decide_eq_true_eq] at h
  exact h.2

theorem dispDue_le (h : s.dispDue now = true) : s.dispMarker.toNat + interval s.params.displayHz ≤ now.toNat := by
  simp only [State.dispDue, Bool.and_eq_true, decide_eq_true_eq] at h
  exact h.2

/-- A scheduler event that is not refused has a time that is not past. -/
theorem timeNs_le_of_not_refused (hact : ∀ r, s.nextAction ≠ .refuse r)
    (hagenda : s.agenda = .pass now :: rest ∨ s.agenda = .start now :: rest) : s.timeNs.toNat ≤ now.toNat := by
  cases htime : s.timeRefusal now with
  | none => exact ((s.timeRefusal_eq_none_iff now).mp htime).2.2
  | some r => exact absurd (by obtain h | h := hagenda <;> simp [State.nextAction, h, htime]) (hact r)

/-- Taking an event that has a meaning leaves no marker ahead of the time: a marker moves to the time, or by an interval
that ends at or before it. -/
theorem takeEvent_markersOk (hact : ∀ r, s.nextAction ≠ .refuse r) (h : s.MarkersOk) : s.takeEvent.MarkersOk := by
  obtain ⟨hcpu, hdisp⟩ := h
  fun_cases State.takeEvent s with
  | case5 => exact ⟨le_rfl, le_rfl⟩
  | case6 t0 rest hagenda =>
    have hnow := timeNs_le_of_not_refused hact (.inr hagenda)
    exact ⟨hcpu.trans hnow, hdisp.trans hnow⟩
  | case7 now rest hagenda hdue =>
    have hnow := timeNs_le_of_not_refused hact (.inl hagenda)
    have hle := cpuDue_le hdue
    exact ⟨(marker_add_toNat hle).trans_le hle, hdisp.trans hnow⟩
  | case8 now rest hagenda _ hdue =>
    have hnow := timeNs_le_of_not_refused hact (.inl hagenda)
    have hle := dispDue_le hdue
    exact ⟨hcpu.trans hnow, (marker_add_toNat hle).trans_le hle⟩
  | case9 now rest hagenda =>
    have hnow := timeNs_le_of_not_refused hact (.inl hagenda)
    exact ⟨hcpu.trans hnow, hdisp.trans hnow⟩
  | _ => exact ⟨hcpu, hdisp⟩

theorem step_markersOk (h : s.MarkersOk) (hstep : step s = .next t) : t.MarkersOk := by
  have hact : ∀ r, s.nextAction ≠ .refuse r := fun r hr => by cases (step_of_refuse hr).symm.trans hstep
  obtain ⟨rom, -, rfl⟩ | ⟨hcpu, hdisp, htime, -, -⟩ := step_hostSide hstep
  · exact afterReset_markersOk _ rom
  · rw [State.MarkersOk, hcpu, hdisp, htime]
    exact takeEvent_markersOk hact h

/-- No step changes the parameters. -/
theorem step_params (hstep : step s = .next t) : t.params = s.params := by
  obtain ⟨rom, -, rfl⟩ | ⟨-, -, -, hparams, -⟩ := step_hostSide hstep
  · exact s.takeEvent_params
  · exact hparams

end Markers

/-- Settles O60: each of the six parts is kept by itself. -/
theorem soundStatesStaySound : Obligations.SoundStatesStaySound := by
  unfold Obligations.SoundStatesStaySound
  intro s t h hstep
  exact {
    memory := keptByParts_memoryOk.of_step h.memory hstep
    pc := keptByParts_pcOk.of_step h.pc hstep
    keyWait := keptByParts_keyWaitOk.of_step h.keyWait hstep
    record := keptByParts_recordOk.of_step h.record hstep
    markers := step_markersOk h.markers hstep
    params := (congrArg (fun p : Params => p.wf = true) (step_params hstep)).mpr h.params }

end Sys2Proof.Machine
end
